-- ==== Sys2Proof/Word.lean ====
section
/-!
DEFINITION. The words of the ZP-418: the bit-vector types the guide uses, and the index types for the parts it
numbers (00_scope.md section 3, "Numbering of parts of the device").
-/

namespace Sys2Proof

/-- A byte of a beat, of a setup entry, of a report record or of house code. -/
abbrev Byte := BitVec 8

/-- A byte address on the 28-bit bus (00_scope.md section 3). -/
abbrev Addr := BitVec 28

/-- The data of one beat: eight bytes, the lowest-addressed byte in bits 7 to 0 (R1). -/
abbrev BeatData := BitVec 64

/-- A seven-unit line symbol, unit 1 in bit 6, 1 for mark and 0 for space (R142). -/
abbrev Pattern := BitVec 7

/-- A five-unit teleprinter code (00_scope.md section 3). -/
abbrev FiveUnit := BitVec 5

/-- A bring-up word, bits 19 down to 0 (R172). -/
abbrev BringUpWord := BitVec 20

/-- Desk `d` of the guide (1 to 24) is the index `d - 1`. -/
abbrev DeskId := Fin 24

/-- A trunk, 0 to 3. -/
abbrev TrunkId := Fin 4

/-- An intake window, 0 to 7. -/
abbrev WindowId := Fin 8

/-- A story handle, 0 to 127. -/
abbrev HandleId := Fin 128

/-- An agency, 0 to 15. -/
abbrev AgencyId := Fin 16

/-- The guide's number of a desk, 1 to 24. -/
def deskNumber (d : DeskId) : Nat := d.val + 1

/-- The desk a number names: 1 to 24; 0 (a spare slot) and numbers above 24 name none. -/
def deskOfNumber (n : Nat) : Option DeskId :=
  if h : 1 ≤ n ∧ n ≤ 24 then some ⟨n - 1, by omega⟩ else none

/-- Every desk, in ascending number. -/
def allDesks : List DeskId := List.finRange 24

/-- Every window, in ascending number. -/
def allWindows : List WindowId := List.finRange 8

/-- Every trunk, in ascending number. -/
def allTrunks : List TrunkId := List.finRange 4

/-- Every handle, in ascending number. -/
def allHandles : List HandleId := List.finRange 128

end Sys2Proof
end

