-- ==== Sys2Proof/Syntax.lean ====
section
/-!
DEFINITION. The commands of the block: one constructor of `Instr` for each row of spec/opcode_table.json, and the
types of their operands. The table gives its rows no operands (its "fields" are empty). An operand stands here only
for what the outside of the part decides at the event: which desk or trunk the event is of, what the bus or the line
carries. What the part itself holds (the action at the head of the control FIFO, the place in a frame, the request
in a hold) is read from State (log entry 2).
-/

namespace Sys2Proof

/-- The status a completion carries (R1). -/
inductive Status where
  | ok
  | error
  deriving DecidableEq, Repr

/-- One beat of a write: eight data bytes and their byte enables, bit k for byte k (R1). -/
structure Beat where
  data : BeatData
  enables : BitVec 8
  deriving DecidableEq, Repr

/-- A request on a bus port: a read of a number of beats or a write of its beats, at the byte address of its first
beat (R1). -/
inductive BusRequest where
  | read (addr : Addr) (beats : Nat)
  | write (addr : Addr) (beats : List Beat)
  deriving DecidableEq, Repr

/-- An accepted edge of the MINUTE pin (R194). -/
inductive Edge where
  | rising
  | falling
  deriving DecidableEq, Repr

/-- The part's steps, row by row in the order of spec/opcode_table.json. -/
inductive Instr where
  /-- HARD_RESET (R34): the RESET pin, with the levels on the strap pins CPB27 to CPB12 at its end. -/
  | hardReset (straps : BitVec 16)
  /-- TAKE_UPSTREAM_REQUEST (R3), of the request presented. -/
  | takeUpstreamRequest (r : BusRequest)
  /-- HOLD_TIMER_EXPIRY (R12). -/
  | holdTimerExpiry
  /-- UPSTREAM_COMPLETION_RETURN (R10). -/
  | upstreamCompletionReturn
  /-- DOWNSTREAM_COMPLETION (R9), with the status and the data beats that the downstream port delivers. -/
  | downstreamCompletion (st : Status) (data : List BeatData)
  /-- FETCH_READ_GRANT (R133). -/
  | fetchReadGrant
  /-- REPORT_WRITE_GRANT (R190). -/
  | reportWriteGrant
  /-- SNAPSHOT_WRITE_GRANT (R193). -/
  | snapshotWriteGrant
  /-- SETUP_COMMIT (R25). -/
  | setupCommit
  /-- CONSUMED_INDEX (R191). -/
  | consumedIndex
  /-- GO (R30). -/
  | go
  /-- SOFT_RESET (R31). -/
  | softReset
  /-- RELEASE (R65). -/
  | release
  /-- KILL (R75). -/
  | kill
  /-- OPEN_DESK (R84). -/
  | openDesk
  /-- CLOSE_DESK (R85). -/
  | closeDesk
  /-- HOLD_DESK (R98). -/
  | holdDesk
  /-- FREE_DESK (R99). -/
  | freeDesk
  /-- TRUNK_UP (R175). -/
  | trunkUp
  /-- TRUNK_DOWN (R183). -/
  | trunkDown
  /-- CLEAR_TRUNK_ERRORS (R167). -/
  | clearTrunkErrors
  /-- ENABLE_WINDOW (R53). -/
  | enableWindow
  /-- DISABLE_WINDOW (R54). -/
  | disableWindow
  /-- CLEAR_WINDOW (R55). -/
  | clearWindow
  /-- SET_CLOCK (R195). -/
  | setClock
  /-- SNAPSHOT (R193). -/
  | snapshot
  /-- CLEAR_LINE (R192). -/
  | clearLine
  /-- UNKNOWN_COMMAND_CODE (R32). -/
  | unknownCommandCode
  /-- TAKE_NEXT_ITEM (R96), at a desk. -/
  | takeNextItem (d : DeskId)
  /-- COMPOSE_GROUP (R107), at a desk. -/
  | composeGroup (d : DeskId)
  /-- FLASH_BREAK (R122), at a desk. -/
  | flashBreak (d : DeskId)
  /-- FRAME_START (R146), on a trunk. -/
  | frameStart (t : TrunkId)
  /-- SLOT_START (R149), on a trunk: the next slot of its data frame. -/
  | slotStart (t : TrunkId)
  /-- TRANSMITTER_ENTERS_MARK (R144), on a trunk. -/
  | transmitterEntersMark (t : TrunkId)
  /-- BREAK_START (R157), on a trunk. -/
  | breakStart (t : TrunkId)
  /-- BREAK_END (R157), on a trunk. -/
  | breakEnd (t : TrunkId)
  /-- MEASUREMENT_COMPLETE (R159), on a trunk, with the shortest of the 64 runs, in samples. -/
  | measurementComplete (t : TrunkId) (estimate : Nat)
  /-- FRAME_PAIR_FOUND (R160), on a trunk: whether the two symbols compared are both FRAME. -/
  | framePairFound (t : TrunkId) (found : Bool)
  /-- FAR_FRAME_START (R162), on a trunk, with the symbol read. -/
  | farFrameStart (t : TrunkId) (sym : Pattern)
  /-- MISSING_FRAME (R162), on a trunk, with the symbol read at the last expected position. -/
  | missingFrame (t : TrunkId) (sym : Pattern)
  /-- RETURN_SLOT_READ (R168), on a trunk, with the symbol read. -/
  | returnSlotRead (t : TrunkId) (sym : Pattern)
  /-- BRING_UP_WORD_RECEIVED (R173), on a trunk, with the word that the four word symbols form. -/
  | bringUpWordReceived (t : TrunkId) (w : BringUpWord)
  /-- LINK_TIMER_EXPIRY (R180), on a trunk. -/
  | linkTimerExpiry (t : TrunkId)
  /-- BRING_UP_LIMIT_EXPIRY (R184), on a trunk. -/
  | bringUpLimitExpiry (t : TrunkId)
  /-- MINUTE_ADVANCE (R194), with the edge accepted. -/
  | minuteAdvance (e : Edge)
  /-- SYMBOL_READ (R166), on a trunk, with the symbol read. -/
  | symbolRead (t : TrunkId) (sym : Pattern)
  deriving DecidableEq, Repr

end Sys2Proof
end

