-- ==== Sys2Proof/Decode.lean ====
section
/-!
DEFINITION. The command a table word spells. spec/opcode_table.json gives no row any bits (its "fields" are empty
and it has no "fixed" entries), so no word spells a command (log entry 1).
-/

namespace Sys2Proof

/-- No row of the table gives bits: no word of any length spells a command. -/
def decodeTableWord (_nbits _w : Nat) : Option Instr := none

end Sys2Proof
end

