-- ==== Sys2Proof/Config.lean ====
section
/-!
DEFINITION. What is fixed for the part outside its registers: the periods of the line reference clock LREF that its
timers count (R13, R143, R155, R180, R184, R194), and the one free value of the model.
-/

namespace Sys2Proof.Config

/-- Periods of the 48 MHz line reference clock in a microsecond (R13, R143). -/
def lrefPerMicrosecond : Nat := 48

/-- LREF periods of a unit at a rate class, 0 to 3 (Table 8-3). -/
def unitPeriod (rate : Nat) : Nat :=
  match rate with
  | 0 => 80000
  | 1 => 40000
  | 2 => 20000
  | _ => 10000

/-- LREF periods between two samples of RXD: a sixteenth of the unit (R155). -/
def samplePeriod (rate : Nat) : Nat := unitPeriod rate / 16

/-- The settling time of a link timer select, 0 to 3, in LREF periods: 10, 50, 200 or 1000 ms (R180). -/
def linkPeriod (select : Nat) : Nat :=
  match select with
  | 0 => 10 * 48000
  | 1 => 50 * 48000
  | 2 => 200 * 48000
  | _ => 1000 * 48000

/-- The bring-up limit in LREF periods, for a limit in seconds (R184). -/
def limitPeriod (seconds : Nat) : Nat := seconds * 48000000

/-- FREE VALUE (log entry 3). A text read returned OK with fewer than its 4 data beats: the guide gives no value for
the bytes that were not delivered. The byte at an index of the block, in the given occurrence of the case; nothing
constrains it. -/
opaque missingFetchByte : Nat → Nat → Byte

end Sys2Proof.Config
end

