-- ==== Sys2Proof/Machine/State.lean ====
section
/-!
DEFINITION. The state of the ZP-418 as plain data, block by block (Table 1-1), the reasons a step can stop, and the
state right after a hard reset. INVENTORY.md, under "State", lists every field with the rule that names it.
-/

namespace Sys2Proof.Machine

/-! ### Names the guide gives in capitals -/

/-- The part mode (R29). -/
inductive Mode where
  | configure
  | run
  deriving DecidableEq, Repr

/-- A line condition, or the level of a sampled pin (8.1): MARK, the condition of a line at rest, or SPACE. -/
inductive Level where
  | mark
  | space
  deriving DecidableEq, Repr

/-- Parse states (Table 3-3). -/
inductive ParseState where
  | hunt
  | lead
  | text
  | skip
  deriving DecidableEq, Repr

/-- Story states (R60); `opened` is OPEN. -/
inductive StoryState where
  | free
  | opened
  | held
  | live
  | spent
  | killed
  | superseded
  deriving DecidableEq, Repr

/-- Story classes, in falling urgency. -/
inductive StoryClass where
  | flash
  | bulletin
  | urgent
  | routine
  | deferred
  deriving DecidableEq, Repr

/-- Story modes (Table 4-1). -/
inductive StoryMode where
  | new
  | writeThru
  | kill
  deriving DecidableEq, Repr

/-- Desk marks (Table 4-1); `absent` is NONE. -/
inductive Mark where
  | absent
  | queued
  | active
  | done
  | dropped
  | cut
  deriving DecidableEq, Repr

/-- The desk selector of a story: ALL or a set of desks (Table 3-4). -/
inductive Selector where
  | all
  | desks (set : List DeskId)
  deriving DecidableEq, Repr

/-- A contiguous run of text in a window (R45). -/
structure Extent where
  start : Addr
  length : Nat
  deriving DecidableEq, Repr

/-- The kinds of queue entries and of current items (R87, R102). -/
inductive ItemKind where
  | story
  | killNotice
  deriving DecidableEq, Repr

/-- Notice kinds (Table 6-5). -/
inductive NoticeKind where
  | breakNotice
  | resume
  | correction
  | kill
  | textLost
  | killNotice
  | restored
  deriving DecidableEq, Repr

/-- The causes of a hold (R11), with the held write's window for the two causes of the intake parser. A TABLE_FULL hold
records the address of the START byte that found no entry when the write was classified; R51 reports it at expiry, and that
it is not reckoned again then is log entry 39. -/
inductive HoldCause where
  | tableFull (w : WindowId) (start : Addr)
  | ringFull (w : WindowId)
  | fifoFull
  deriving DecidableEq, Repr

/-- Report kinds, in the order of Table 11-3. -/
inductive ReportKind where
  | storyIn
  | storyPlaced
  | storyDone
  | flashBreak
  | embargoRelease
  | trunkUp
  | lineMark
  | underrun
  | snapshotReady
  | softResetDone
  | storyRefused
  | storyAbandoned
  | deskDrop
  | deskClosed
  | storyCut
  | referenceUnknown
  | protectedWrite
  | windowFull
  | windowLow
  | commandRefused
  | setupRefused
  | trunkLost
  | lineBreak
  | trunkMismatch
  | mapMismatch
  | trunkStalled
  | codeError
  | rateMismatch
  | fetchError
  deriving DecidableEq, Repr

/-- Bring-up states of a trunk (Table 10-1). -/
inductive TrunkState where
  | down
  | search
  | confirm
  | map
  | settle
  | up
  | broken
  deriving DecidableEq, Repr

/-- Alignment states of a receiver (Table 9-1). -/
inductive Alignment where
  | off
  | measuring
  | seeking
  | locking
  | framed
  | data
  deriving DecidableEq, Repr

/-! ### Store interposer (Chapter 1) -/

/-- The owner of a completion queue entry, with the desk and epoch of a FETCH entry (R8). -/
inductive Owner where
  | upstream
  | fetch (desk : DeskId) (epoch : BitVec 8)
  | report
  | snapshot
  deriving DecidableEq, Repr

/-- Read or write (R8). -/
inductive Access where
  | read
  | write
  deriving DecidableEq, Repr

/-- A completion: its status and its data beats (R1). -/
structure Completion where
  status : Status
  data : List BeatData
  deriving DecidableEq, Repr

/-- An entry of the completion queue (R8): WAITING while `result` is absent, COMPLETE once it is present. -/
structure QueueEntry where
  owner : Owner
  access : Access
  isLocal : Bool
  result : Option Completion
  deriving DecidableEq, Repr

/-- The request standing at the upstream port, with the mark of R12 that its outcome is fixed: forwarded without a
copy to the control unit. -/
structure PortRequest where
  request : BusRequest
  outcomeFixed : Bool
  deriving DecidableEq, Repr

/-- A hold of the standing request (R11): its cause, and the hold timer, with the limit in force when it began, in
microseconds, and the LREF periods since then (R13). -/
structure Hold where
  cause : HoldCause
  limit : Nat
  elapsed : Nat
  deriving DecidableEq, Repr

/-- The own source served last (R15). -/
inductive OwnSource where
  | report
  | fetch
  deriving DecidableEq, Repr

/-! ### Control unit (Chapter 2) -/

/-- A setup entry of the control page (Table 2-1). -/
inductive EntryId where
  | general (word : Fin 5)
  | window (w : WindowId)
  | trunk (t : TrunkId)
  | desk (d : DeskId)
  | agency (a : AgencyId)
  | phrase (p : Fin 11)
  | codeWord (page : Fin 4) (word : Fin 32)
  | convWord (word : Fin 32)
  deriving DecidableEq, Repr

/-- The entry stage (R23): the entry its words belong to, and their enabled bytes by page offset. -/
structure Stage where
  entry : EntryId
  cells : List Host.Cell
  deriving DecidableEq, Repr

/-- The bytes of the command word that the part reads (Table 2-8). -/
structure CommandWord where
  code : Byte
  target : Byte
  handle : Byte
  generation : Byte
  value : BitVec 32
  deriving DecidableEq, Repr

/-- An action of a control item (R22). A commit action records its entry, whether its earlier words were all staged,
and the enabled bytes of its words by page offset. -/
inductive Action where
  | commit (entry : EntryId) (staged : Bool) (cells : List Host.Cell)
  | command (word : CommandWord)
  | consumed (value : Nat)
  deriving DecidableEq, Repr

/-! ### Intake windows (Chapter 3) -/

/-- Per-window state (Table 3-1). The protect latch is set when it holds its captured address. -/
structure Window where
  enabled : Bool := false
  setUp : Bool := false
  parse : ParseState := .hunt
  intake : Addr := 0
  lead : List Byte := []
  textCount : Nat := 0
  extents : List Extent := []
  stories : List HandleId := []
  protect : Option Addr := none
  absorbed : Nat := 0
  reserveLow : Bool := false
  deriving DecidableEq, Repr

/-! ### Story table (Chapter 4) -/

/-- A story record (Table 4-1) with the values its fields have when the record is cleared (R59). The handle is the
record's place in the table. That a cleared record holds window 0, agency 0 and origin 0 is the model's choice (log entry
33). -/
structure Story where
  generation : BitVec 8 := 0
  state : StoryState := .free
  window : WindowId := 0
  agency : AgencyId := 0
  serial : Nat := 0
  cls : StoryClass := .routine
  mode : StoryMode := .new
  refSerial : Option Nat := none
  refHandle : Option (HandleId × BitVec 8) := none
  embargo : Option Nat := none
  selector : Selector := .desks []
  slug : List Byte := []
  origin : Addr := 0
  textCount : Nat := 0
  extents : List Extent := []
  marks : Vector Mark 24 := Vector.replicate 24 .absent
  holders : Nat := 0
  deriving DecidableEq, Repr

/-! ### Dispatcher and composer (Chapters 5 and 6) -/

/-- A desk queue entry (R87). -/
structure DeskEntry where
  handle : HandleId
  kind : ItemKind
  cls : StoryClass
  deriving DecidableEq, Repr

/-- A follow-on item, of kind STORY (R93). -/
structure FollowOn where
  handle : HandleId
  cls : StoryClass
  deriving DecidableEq, Repr

/-- A code group still to be composed in a header, trailer or notice (R107). -/
inductive Group where
  | opening
  | bell
  | char (b : Byte)
  | space
  | lineEnd
  | feed
  deriving DecidableEq, Repr

/-- What follows a notice's last group (Table 6-2): END, or the segment to compose with its starting point. A notice
restarted by a restore is itself a continuation (R125). -/
inductive Continuation where
  | finish
  | header
  | text (offset : Nat)
  | trailer
  | notice (kind : NoticeKind) (names : HandleId) (next : Continuation)
  deriving DecidableEq, Repr

/-- The segment being composed, with the notice and its continuation when it is NOTICE (Table 6-2). -/
inductive Segment where
  | header
  | text
  | trailer
  | notice (kind : NoticeKind) (names : HandleId) (next : Continuation)
  deriving DecidableEq, Repr

/-- The send context of a desk (Table 6-2). The position in a fixed layout is the list of the groups still to compose,
made when the header, trailer or notice begins, with the agency entry and phrases as they then stand (R112, R113, R114).
The feed lines are read when the item begins (R83). -/
structure SendContext where
  handle : HandleId
  kind : ItemKind
  segment : Segment
  layout : List Group
  openingDone : Bool
  cursor : Nat
  lineStart : Nat
  columnLimit : Nat
  feedLines : Nat
  underrunLatch : Bool
  deriving DecidableEq, Repr

/-- A resume point (R104). -/
inductive ResumePoint where
  | header
  | text (offset : Nat)
  deriving DecidableEq, Repr

/-- The saved context of a desk (R104). -/
structure SavedContext where
  handle : HandleId
  resume : ResumePoint
  cutNotice : Option NoticeKind
  deriving DecidableEq, Repr

/-- A code in a character buffer, with its end tag (R108). -/
structure BufferCode where
  code : FiveUnit
  endTag : Bool
  deriving DecidableEq, Repr

/-- The shift state (R103). -/
inductive Shift where
  | letters
  | figures
  deriving DecidableEq, Repr

/-- A text block: its block address and its valid offsets, first and last (R130). -/
structure TextBlock where
  address : Addr
  first : Nat
  last : Nat
  deriving DecidableEq, Repr

/-- A staging block (R129). -/
inductive Staging where
  | empty
  | requested (block : TextBlock)
  | full (block : TextBlock) (data : List Byte)
  deriving DecidableEq, Repr

/-- Per-desk state: Table 5-1 (but for the shadow, which is setup), Table 6-1 and the staging blocks of Table 7-1. -/
structure Desk where
  isOpen : Bool := false
  queue : List DeskEntry := []
  directNext : Option FollowOn := none
  savedFollowOn : Option FollowOn := none
  preempt : Bool := false
  context : Option SendContext := none
  saved : Option SavedContext := none
  line : Bool := false
  farStop : Bool := false
  held : Bool := false
  buffer : List BufferCode := []
  shift : Shift := .letters
  column : Nat := 0
  epoch : BitVec 8 := 0
  underruns : Nat := 0
  staging0 : Staging := .empty
  staging1 : Staging := .empty
  deriving DecidableEq, Repr

/-! ### Trunks (Chapters 8, 9 and 10) -/

/-- The frame kind in use, with the latched word of a bring-up frame (Table 8-1). -/
inductive FrameKind where
  | bringUp (latched : BringUpWord)
  | data
  deriving DecidableEq, Repr

/-- A transmitter in FRAMING (Table 8-1): frame kind, symbol of the frame and unit of the symbol in progress, the
pattern being sent, and the unit timer with the rate class it runs at. `stopping` says that the trunk has been taken
to DOWN and the symbol in progress is the last (R144). -/
structure Framing where
  kind : FrameKind
  symbol : Nat
  unit : Nat
  pattern : Pattern
  rate : Nat
  timer : Nat
  stopping : Bool
  deriving DecidableEq, Repr

/-- A unit measurement in progress (R159): transitions counted and the shortest run so far, in samples. -/
structure Measurement where
  count : Nat
  shortest : Nat
  deriving DecidableEq, Repr

/-- The lock of LOCKING (R160): the lock count, and the symbols read since the first symbol of the pair last found. -/
structure Lock where
  count : Nat
  offset : Nat
  deriving DecidableEq, Repr

/-- The kind of a frame reference (R162). -/
inductive RefKind where
  | bringUp
  | data
  | pending
  deriving DecidableEq, Repr

/-- A frame reference (R162): its kind; how many symbols after it the last symbol was read; whether it is an accepted
frame start and not one reached by a missing frame; whether that start was accepted in DATA, so that the channel slots
after it are read (R162, R168); whether the accepted start before it was of kind BRING-UP, 6 symbols earlier (R165); the
word symbols read so far; and whether one of them withholds the word. -/
structure FrameRef where
  kind : RefKind
  offset : Nat
  accepted : Bool
  slotsRead : Bool
  afterBringUp : Bool
  values : List FiveUnit
  withheld : Bool
  deriving DecidableEq, Repr

/-- A captured code error (R166). -/
structure Capture where
  slot : Nat
  pattern : Pattern
  deriving DecidableEq, Repr

/-- Per-trunk receiver state (Table 9-1), with the RXD pin, whose level no step of the table sets (log entry 35), and what
R155, R156 and R160 imply: the sample timer (the LREF periods still to run before the next sample), the last 14 units taken
and the units of the symbol in progress. The retimer holds the position that the next sample takes. -/
structure Receiver where
  rxd : Level := .mark
  lastSample : Level := .mark
  accepted : Level := .mark
  sampleTimer : Nat := 0
  retimer : Nat := 1
  inBreak : Bool := false
  run : Nat := 0
  alignment : Alignment := .off
  measured : Nat := 0
  mismatch : Bool := false
  measurement : Option Measurement := none
  units : BitVec 14 := 0
  unitCount : Nat := 0
  lock : Option Lock := none
  ref : Option FrameRef := none
  missCount : Nat := 0
  switchWindow : Nat := 0
  capture : Option Capture := none
  errorCount : Nat := 0
  deriving DecidableEq, Repr

/-- The last received word with its repeat count (R173). -/
structure Received where
  word : BringUpWord
  repeats : Nat
  deriving DecidableEq, Repr

/-- The page of MAP (Table 10-1). -/
structure MapPage where
  index : Nat
  seen : Bool
  deriving DecidableEq, Repr

/-- Per-trunk bring-up state (Table 10-1). A running timer holds the LREF periods since its start. -/
structure BringUp where
  state : TrunkState := .down
  received : Option Received := none
  farStation : Option Nat := none
  page : Option MapPage := none
  linkTimer : Option Nat := none
  limitTimer : Option Nat := none
  deriving DecidableEq, Repr

/-- A trunk: its transmitter (absent framing is MARK), receiver and bring-up controller. -/
structure Trunk where
  transmitter : Option Framing := none
  receiver : Receiver := { }
  bringUp : BringUp := { }
  deriving DecidableEq, Repr

/-! ### Report writer and minute clock (Chapter 11) -/

/-- A report record (Table 11-2) but for its missed count, which is filled when its write is granted. -/
structure Record where
  kind : ReportKind
  subject : Byte
  handle : Byte
  generation : Byte
  serial : Nat
  minute : Nat
  detail : List Byte
  deriving DecidableEq, Repr

/-- What an outstanding write of the report writer is: a record, of a kind, or a block of a snapshot. -/
inductive OwnWrite where
  | record (kind : ReportKind)
  | block
  deriving DecidableEq, Repr

/-- The outstanding write (Table 11-1). -/
structure Outstanding where
  write : OwnWrite
  abandoned : Bool
  deriving DecidableEq, Repr

/-- A snapshot in progress (Table 11-1): its kind, the captured image and the number of its writes issued. -/
structure Snapshot where
  kind : Nat
  image : List Byte
  issued : Nat
  deriving DecidableEq, Repr

/-- The report writer (Table 11-1). -/
structure ReportWriter where
  queue : List Record := []
  writeIndex : Nat := 0
  consumed : Nat := 0
  missed : Nat := 0
  alert : Bool := false
  notice : Bool := false
  storeFault : Bool := false
  outstanding : Option Outstanding := none
  snapshot : Option Snapshot := none
  deriving DecidableEq, Repr

/-- The minute clock and the MINUTE pin with its filter (R194): high is true. Last sample and accepted level are absent
from a hard reset until the first sample and the first two equal samples. `lref` counts the LREF periods of the
microsecond in progress. -/
structure Clock where
  minute : Nat := 0
  pin : Bool := false
  lastSample : Option Bool := none
  accepted : Option Bool := none
  lref : Nat := 0
  deriving DecidableEq, Repr

/-! ### The whole part -/

/-- The state of the part. `pending` is the queue of commands waiting to be carried out, first in, first out. `freeUse`
numbers the uses of the free value of Config. `downBus` and `upBus` are the downstream request and the upstream
completion last driven on the two ports. -/
structure State where
  mode : Mode
  straps : BitVec 16
  setup : List Host.Cell
  stage : Option Stage
  fifo : List (List Action)
  entries : List QueueEntry
  port : Option PortRequest
  hold : Option Hold
  ownWait : Nat
  lastOwn : OwnSource
  downBus : Option BusRequest
  upBus : Option Completion
  windows : Vector Window 8
  stories : Vector Story 128
  completion : List HandleId
  desks : Vector Desk 24
  fetchPointer : DeskId
  trunks : Vector Trunk 4
  writer : ReportWriter
  clock : Clock
  freeUse : Nat
  pending : List Instr
  deriving DecidableEq, Repr

/-- Reasons a step stops with a fault. The guide gives every step of the part an effect, so no step faults: the type
has no constructor (safe: nothing is stopped). -/
inductive Fault where
  deriving DecidableEq, Repr

/-- Reasons a step is refused. -/
inductive Refusal where
  /-- Raised by exec's own arms for a command that has no meaning yet (safe: the model stops where the part goes on).
  No arm raises it now. -/
  | notModelled (mnemonic : String)
  deriving DecidableEq, Repr

/-- The part right after a hard reset (R19, R34, R57, R81, R100, R127, R140, R153, R170, R187, R196), with the strap
pins low, the RXD pins at mark and the MINUTE pin low (log entry 4). -/
def State.reset : State where
  mode := .configure
  straps := 0
  setup := []
  stage := none
  fifo := []
  entries := []
  port := none
  hold := none
  ownWait := 0
  lastOwn := .fetch
  downBus := none
  upBus := none
  windows := Vector.replicate 8 { }
  stories := Vector.replicate 128 { }
  completion := []
  desks := Vector.replicate 24 { }
  fetchPointer := 23
  trunks := Vector.replicate 4 { }
  writer := { }
  clock := { }
  freeUse := 0
  pending := []

end Sys2Proof.Machine
end

