-- ==== Sys2Proof/WellFormed.lean ====
section
/-!
DEFINITION. Which commands are well formed: what an operand must satisfy for the event to be one the guide
describes. The part's own answer to a bus request that breaks the bus form (R2) is part of its behaviour, so a
request is not restricted beyond what the bus signals can say; exec is total on ill-formed commands too.
-/

namespace Sys2Proof

/-- The number of beats a request asks for (R1). -/
def BusRequest.beatCount : BusRequest → Nat
  | .read _ beats => beats
  | .write _ beats => beats.length

/-- The byte address of a request's first beat (R1). -/
def BusRequest.address : BusRequest → Addr
  | .read a _ => a
  | .write a _ => a

/-- A request that a bus can present: at least one beat, at the address of a beat, a multiple of 8 (R1). A request of
more than 4 beats, or across a 32-byte boundary, is well formed as a command: the part refuses it itself (R2). -/
def BusRequest.wellFormed (r : BusRequest) : Bool :=
  decide (1 ≤ r.beatCount) && decide (r.address.toNat % 8 = 0)

/-- A command is well formed when its operands lie in the ranges of the rule it stands for: a completion carries at
most the 4 beats of a request (R1), and a unit estimate is 2 to 255 samples (R159). -/
def Instr.wellFormed : Instr → Bool
  | .takeUpstreamRequest r => r.wellFormed
  | .downstreamCompletion _ data => decide (data.length ≤ 4)
  | .measurementComplete _ estimate => decide (2 ≤ estimate ∧ estimate ≤ 255)
  | .hardReset _ => true
  | .holdTimerExpiry => true
  | .upstreamCompletionReturn => true
  | .fetchReadGrant => true
  | .reportWriteGrant => true
  | .snapshotWriteGrant => true
  | .setupCommit => true
  | .consumedIndex => true
  | .go => true
  | .softReset => true
  | .release => true
  | .kill => true
  | .openDesk => true
  | .closeDesk => true
  | .holdDesk => true
  | .freeDesk => true
  | .trunkUp => true
  | .trunkDown => true
  | .clearTrunkErrors => true
  | .enableWindow => true
  | .disableWindow => true
  | .clearWindow => true
  | .setClock => true
  | .snapshot => true
  | .clearLine => true
  | .unknownCommandCode => true
  | .takeNextItem _ => true
  | .composeGroup _ => true
  | .flashBreak _ => true
  | .frameStart _ => true
  | .slotStart _ => true
  | .transmitterEntersMark _ => true
  | .breakStart _ => true
  | .breakEnd _ => true
  | .framePairFound _ _ => true
  | .farFrameStart _ _ => true
  | .missingFrame _ _ => true
  | .returnSlotRead _ _ => true
  | .bringUpWordReceived _ _ => true
  | .linkTimerExpiry _ => true
  | .bringUpLimitExpiry _ => true
  | .minuteAdvance _ => true
  | .symbolRead _ _ => true

end Sys2Proof
end

