-- ==== Sys2Proof/Machine/Ops.lean ====
section
/-!
DEFINITION. The shared operations: bytes and numbers, the sparse byte store of the setup shadows, access to the
numbered parts of the device, and the making of report records (R188, R189, R192).
-/

namespace Sys2Proof.Machine

/-! ### Bytes and numbers -/

/-- A number as a byte. -/
def byteOf (n : Nat) : Byte := BitVec.ofNat 8 n

/-- The `k` bytes of a number, least significant first (00_scope.md section 3, "Layouts"). -/
def leBytes (k n : Nat) : List Byte :=
  (List.range k).map fun i => byteOf (n / 256 ^ i)

/-- The number that bytes make, least significant first (00_scope.md section 3, "Layouts"). -/
def leNat : List Byte → Nat
  | [] => 0
  | b :: bs => b.toNat + 256 * leNat bs

/-- A number that rises by one and stays at 255 (R49, R126, R166, R189). -/
def raise255 (n : Nat) : Nat := if n < 255 then n + 1 else n

/-- The bit a truth value makes. -/
def bitOf (b : Bool) : Nat := if b then 1 else 0

/-- Byte `k` of a beat's data (R1). -/
def beatByte (data : BeatData) (k : Nat) : Byte := data.extractLsb' (8 * k) 8

/-- The data of a beat from its bytes, byte 0 first. -/
def beatOf (bytes : List Byte) : BeatData := BitVec.ofNat 64 (leNat (bytes.take 8))

/-- The bytes of data beats, in address order. -/
def beatsBytes (beats : List BeatData) : List Byte :=
  beats.flatMap fun b => (List.range 8).map (beatByte b)

/-- Bytes as fully enabled write beats, eight to a beat. -/
def bytesBeats (count : Nat) (bytes : List Byte) : List Beat :=
  (List.range count).map fun i =>
    { data := beatOf (bytes.drop (8 * i)), enables := BitVec.allOnes 8 }

/-- The enabled bytes of write beats with their addresses, in ascending address order (R1, R36). -/
def enabledBytes (a : Addr) (beats : List Beat) : List (Addr × Byte) :=
  beats.zipIdx.flatMap fun (b, i) =>
    (List.range 8).filterMap fun k =>
      if b.enables.getLsbD k then some (a + BitVec.ofNat 28 (8 * i + k), beatByte b.data k) else none

/-! ### The sparse byte store -/

/-- Byte cells in strictly rising address order. -/
def Cells.put (a : Nat) (b : Byte) : List Host.Cell → List Host.Cell
  | [] => [(a, b)]
  | (x, c) :: rest =>
    if a < x then (a, b) :: (x, c) :: rest
    else if a = x then (a, b) :: rest
    else (x, c) :: Cells.put a b rest

/-- The store without its cell at an address. -/
def Cells.erase (a : Nat) (m : List Host.Cell) : List Host.Cell :=
  m.filter fun c => c.1 != a

/-- The byte a store lists at an address. -/
def Cells.find (a : Nat) : List Host.Cell → Option Byte
  | [] => none
  | (x, c) :: rest => if x = a then some c else Cells.find a rest

/-- The hard-reset value of a setup byte at a page offset: the last column of Table 2-2, and 0 elsewhere (R34). -/
def resetSetupByte (off : Nat) : Byte :=
  match off with
  | 0x10 => 8
  | 0x11 => 64
  | 0x12 => 4
  | 0x18 => 31
  | 0x19 => 27
  | 0x1A => 8
  | 0x1B => 2
  | 0x1C => 4
  | 0x1D => 11
  | _ => 0

/-- The setup shadow byte at a page offset: the listed byte, or the hard-reset value (R34). -/
def Shadow.read (m : List Host.Cell) (off : Nat) : Byte :=
  (Cells.find off m).getD (resetSetupByte off)

/-- The shadows with one byte written. A byte at its hard-reset value is not listed. -/
def Shadow.write (m : List Host.Cell) (off : Nat) (b : Byte) : List Host.Cell :=
  if b = resetSetupByte off then Cells.erase off m else Cells.put off b m

/-- The shadows with the enabled bytes of a commit action put in place of the matching bytes (R22). -/
def Shadow.overlay (m : List Host.Cell) (cells : List Host.Cell) : List Host.Cell :=
  cells.foldl (fun m c => Shadow.write m c.1 c.2) m

/-- Bytes of the shadows from a page offset. -/
def Shadow.bytes (m : List Host.Cell) (off count : Nat) : List Byte :=
  (List.range count).map fun i => Shadow.read m (off + i)

/-- The canonical form of a store: addresses strictly rising, and no cell at the hard-reset value of its byte. -/
abbrev Memory.wf (m : List Host.Cell) : Prop :=
  m.Pairwise (fun c c' => c.1 < c'.1) ∧ ∀ c ∈ m, c.2 ≠ resetSetupByte c.1

/-! ### The numbered parts of the device -/

/-- A vector with one element changed. -/
def modifyAt {α : Type} {n : Nat} (v : Vector α n) (i : Fin n) (f : α → α) : Vector α n :=
  v.set i.val (f v[i]) i.isLt

/-- The record of a story. -/
def State.story (s : State) (h : HandleId) : Story := s.stories[h]

/-- A desk. -/
def State.desk (s : State) (d : DeskId) : Desk := s.desks[d]

/-- A window. -/
def State.window (s : State) (w : WindowId) : Window := s.windows[w]

/-- A trunk. -/
def State.trunk (s : State) (t : TrunkId) : Trunk := s.trunks[t]

/-- The state with one story record changed. -/
def State.onStory (s : State) (h : HandleId) (f : Story → Story) : State :=
  { s with stories := modifyAt s.stories h f }

/-- The state with one desk changed. -/
def State.onDesk (s : State) (d : DeskId) (f : Desk → Desk) : State :=
  { s with desks := modifyAt s.desks d f }

/-- The state with one window changed. -/
def State.onWindow (s : State) (w : WindowId) (f : Window → Window) : State :=
  { s with windows := modifyAt s.windows w f }

/-- The state with one trunk changed. -/
def State.onTrunk (s : State) (t : TrunkId) (f : Trunk → Trunk) : State :=
  { s with trunks := modifyAt s.trunks t f }

/-- The state with one trunk's receiver changed. -/
def State.onReceiver (s : State) (t : TrunkId) (f : Receiver → Receiver) : State :=
  s.onTrunk t fun k => { k with receiver := f k.receiver }

/-- The state with one trunk's bring-up controller changed. -/
def State.onBringUp (s : State) (t : TrunkId) (f : BringUp → BringUp) : State :=
  s.onTrunk t fun k => { k with bringUp := f k.bringUp }

/-- The state with the report writer changed. -/
def State.onWriter (s : State) (f : ReportWriter → ReportWriter) : State :=
  { s with writer := f s.writer }

/-- The mark of a story at a desk. -/
def State.markAt (s : State) (h : HandleId) (d : DeskId) : Mark := (s.story h).marks[d]

/-- The state with the mark of a story at a desk changed (R78). -/
def State.setMark (s : State) (h : HandleId) (d : DeskId) (m : Mark) : State :=
  s.onStory h fun r => { r with marks := modifyAt r.marks d fun _ => m }

/-- A holder of a story is added (R77). -/
def State.addHolder (s : State) (h : HandleId) : State :=
  s.onStory h fun r => { r with holders := r.holders + 1 }

/-- A holder of a story is released (R77). -/
def State.releaseHolder (s : State) (h : HandleId) : State :=
  s.onStory h fun r => { r with holders := r.holders - 1 }

/-- How many desks carry a mark. -/
def Story.countMarks (r : Story) (m : Mark) : Nat := r.marks.toList.count m

/-- A set of desks as three bytes, bit d - 1 for desk d (Table 11-3). -/
def deskSetBytes (p : DeskId → Bool) : List Byte :=
  leBytes 3 ((allDesks.filter p).foldl (fun n d => n + 2 ^ d.val) 0)

/-! ### Codes of Table 11-3 and Table 11-4 -/

def StoryClass.code : StoryClass → Nat
  | .flash => 0
  | .bulletin => 1
  | .urgent => 2
  | .routine => 3
  | .deferred => 4

def StoryMode.code : StoryMode → Nat
  | .new => 0
  | .writeThru => 1
  | .kill => 2

def StoryState.code : StoryState → Nat
  | .free => 0
  | .opened => 1
  | .held => 2
  | .live => 3
  | .spent => 4
  | .killed => 5
  | .superseded => 6

def Segment.code : Segment → Nat
  | .header => 0
  | .text => 1
  | .trailer => 2
  | .notice _ _ _ => 3

def ResumePoint.code : ResumePoint → Nat
  | .header => 0
  | .text _ => 1

def ResumePoint.offset : ResumePoint → Nat
  | .header => 0
  | .text o => o

def NoticeKind.code : NoticeKind → Nat
  | .breakNotice => 1
  | .resume => 2
  | .correction => 3
  | .kill => 4
  | .textLost => 5
  | .killNotice => 6
  | .restored => 7

def ItemKind.code : ItemKind → Nat
  | .story => 0
  | .killNotice => 1

def TrunkState.code : TrunkState → Nat
  | .down => 0
  | .search => 1
  | .confirm => 2
  | .map => 3
  | .settle => 4
  | .up => 5
  | .broken => 6

def Alignment.code : Alignment → Nat
  | .off => 0
  | .measuring => 1
  | .seeking => 2
  | .locking => 3
  | .framed => 4
  | .data => 5

def HoldCause.code : HoldCause → Nat
  | .tableFull _ _ => 1
  | .ringFull _ => 2
  | .fifoFull => 3

def ParseState.code : ParseState → Nat
  | .hunt => 0
  | .lead => 1
  | .text => 2
  | .skip => 3

/-- Report kind codes, 1 to 29 (Table 11-3). -/
def ReportKind.code : ReportKind → Nat
  | .storyIn => 1
  | .storyPlaced => 2
  | .storyDone => 3
  | .flashBreak => 4
  | .embargoRelease => 5
  | .trunkUp => 6
  | .lineMark => 7
  | .underrun => 8
  | .snapshotReady => 9
  | .softResetDone => 10
  | .storyRefused => 11
  | .storyAbandoned => 12
  | .deskDrop => 13
  | .deskClosed => 14
  | .storyCut => 15
  | .referenceUnknown => 16
  | .protectedWrite => 17
  | .windowFull => 18
  | .windowLow => 19
  | .commandRefused => 20
  | .setupRefused => 21
  | .trunkLost => 22
  | .lineBreak => 23
  | .trunkMismatch => 24
  | .mapMismatch => 25
  | .trunkStalled => 26
  | .codeError => 27
  | .rateMismatch => 28
  | .fetchError => 29

/-- Class A kinds are served by ALERT, class N kinds by NOTICE (Table 11-3): kinds 1 to 10 are of class N. -/
def ReportKind.isAlert (k : ReportKind) : Bool := decide (11 ≤ k.code)

/-- FFh: no subject, no handle, or none of what a byte would name (R188). -/
def noneByte : Byte := 0xFF

/-- The 16 bytes of a record with the missed count in byte 8 (Table 11-2). -/
def Record.bytes (r : Record) (missed : Nat) : List Byte :=
  [byteOf r.kind.code, r.subject, r.handle, r.generation] ++ leBytes 2 r.serial ++ leBytes 2 r.minute ++
    [byteOf missed] ++ (r.detail ++ List.replicate 7 0).take 7

/-! ### Making a report -/

/-- Whether general setup word 1 enables a report kind: bit k - 1 for kind k (Table 2-2). -/
def State.kindEnabled (s : State) (k : ReportKind) : Bool :=
  (leNat (Shadow.bytes s.setup 8 4)).testBit (k.code - 1)

/-- The pending flag of a kind's line sets, if the kind is enabled (R192). -/
def State.setLine (s : State) (k : ReportKind) : State :=
  if s.kindEnabled k then
    s.onWriter fun w => if k.isAlert then { w with alert := true } else { w with notice := true }
  else s

/-- The ring size code of general setup word 0 (Table 2-2). -/
def State.ringCode (s : State) : Nat := (Shadow.read s.setup 4).toNat

/-- The records a ring of a size code holds: 16 × 2^(code − 1) for 1 to 7, none for 0 (R26, R190). -/
def ringRecords (code : Nat) : Nat := if code = 0 then 0 else 16 * 2 ^ (code - 1)

/-- A record joins the pending report queue, or is lost when the queue holds 16 records or there is no ring: the missed
count then rises and the record's line is set as by a written one (R189). -/
def State.report (s : State) (r : Record) : State :=
  if s.writer.queue.length < 16 ∧ s.ringCode ≠ 0 then
    s.onWriter fun w => { w with queue := w.queue ++ [r] }
  else
    (s.onWriter fun w => { w with missed := raise255 w.missed }).setLine r.kind

/-- A report that names no story (R188). -/
def State.reportPlain (s : State) (k : ReportKind) (subject : Byte) (detail : List Byte) : State :=
  s.report { kind := k, subject := subject, handle := noneByte, generation := 0, serial := 0,
             minute := s.clock.minute, detail := detail }

/-- A report that names a story, with its generation and serial as they stand (R80, R188). -/
def State.reportStory (s : State) (k : ReportKind) (subject : Byte) (h : HandleId) (detail : List Byte) : State :=
  s.report { kind := k, subject := subject, handle := byteOf h.val, generation := (s.story h).generation,
             serial := (s.story h).serial, minute := s.clock.minute, detail := detail }

/-- The subject byte of a desk. -/
def deskSubject (d : DeskId) : Byte := byteOf (deskNumber d)

/-- The bytes of an address in a detail (R188: an address takes 4 bytes). -/
def addrBytes (a : Addr) : List Byte := leBytes 4 a.toNat

end Sys2Proof.Machine
end

