-- ==== Sys2Proof/Machine/Operands.lean ====
section
/-!
DEFINITION. The fields of the setup shadows (Tables 2-2 to 2-7, conversion and code pages), read where a block uses
them, and the areas of the control page (Table 2-1).
-/

namespace Sys2Proof.Machine

/-! ### Where the entries lie -/

/-- The page offset of an entry's first word (Table 2-1). -/
def EntryId.base : EntryId → Nat
  | .general n => 8 * n.val
  | .window w => 0x40 + 0x10 * w.val
  | .trunk t => 0xC0 + 0x20 * t.val
  | .desk d => 0x140 + 0x10 * d.val
  | .agency a => 0x2C0 + 0x10 * a.val
  | .phrase p => 0x3C0 + 0x20 * p.val
  | .codeWord p w => 0x600 + 0x100 * p.val + 8 * w.val
  | .convWord w => 0xA00 + 8 * w.val

/-- The number of words of an entry (R21). -/
def EntryId.words : EntryId → Nat
  | .general _ => 1
  | .window _ => 2
  | .trunk _ => 4
  | .desk _ => 2
  | .agency _ => 2
  | .phrase _ => 4
  | .codeWord _ _ => 1
  | .convWord _ => 1

/-- What a word of the page is (Table 2-1): word `index` of an entry, the command word, the consumed-index word, or a
word of which no item is made. -/
inductive PageWord where
  | entryWord (e : EntryId) (index : Nat)
  | command
  | consumed
  | noItem
  deriving DecidableEq, Repr

/-- The word of the page at an offset (Table 2-1). -/
def pageWord (off : Nat) : PageWord :=
  if h : off / 8 < 5 then .entryWord (.general ⟨off / 8, h⟩) 0
  else if off < 0x40 then .noItem
  else if h : (off - 0x40) / 0x10 < 8 then .entryWord (.window ⟨(off - 0x40) / 0x10, h⟩) ((off - 0x40) % 0x10 / 8)
  else if h : (off - 0xC0) / 0x20 < 4 then .entryWord (.trunk ⟨(off - 0xC0) / 0x20, h⟩) ((off - 0xC0) % 0x20 / 8)
  else if h : (off - 0x140) / 0x10 < 24 then
    .entryWord (.desk ⟨(off - 0x140) / 0x10, h⟩) ((off - 0x140) % 0x10 / 8)
  else if h : (off - 0x2C0) / 0x10 < 16 then
    .entryWord (.agency ⟨(off - 0x2C0) / 0x10, h⟩) ((off - 0x2C0) % 0x10 / 8)
  else if h : (off - 0x3C0) / 0x20 < 11 then
    .entryWord (.phrase ⟨(off - 0x3C0) / 0x20, h⟩) ((off - 0x3C0) % 0x20 / 8)
  else if off < 0x600 then .noItem
  else if h : (off - 0x600) / 0x100 < 4 then
    .entryWord (.codeWord ⟨(off - 0x600) / 0x100, h⟩ ⟨(off - 0x600) % 0x100 / 8, by omega⟩) 0
  else if h : (off - 0xA00) / 8 < 32 then .entryWord (.convWord ⟨(off - 0xA00) / 8, h⟩) 0
  else if off / 8 = 0x1C0 then .command
  else if off / 8 = 0x1C1 then .consumed
  else .noItem

/-- The base of the control page: bits 27 to 12 from the straps (R21). -/
def State.pageBase (s : State) : Nat := s.straps.toNat * 4096

/-- Whether an address lies in the control page, 4 KiB from its base (R4, R21). -/
def State.inPage (s : State) (a : Addr) : Bool := decide (a.toNat / 4096 = s.straps.toNat)

/-! ### General setup words (Table 2-2) -/

def Setup.ringBase (m : List Host.Cell) : Nat := leNat (Shadow.bytes m 0 4)
def Setup.ringCode (m : List Host.Cell) : Nat := (Shadow.read m 4).toNat
def State.ringBase (s : State) : Nat := Setup.ringBase s.setup
/-- The number of records of the ring; 0 when there is none. -/
def State.ringSize (s : State) : Nat := ringRecords s.ringCode
def State.yieldCount (s : State) : Nat := (Shadow.read s.setup 0x10).toNat
def State.holdLimit (s : State) : Nat := (Shadow.read s.setup 0x11).toNat
def State.fetchLimit (s : State) : Nat := (Shadow.read s.setup 0x12).toNat

/-- Code `i` of general setup word 3: LTRS, FIGS, CR, LF, SPACE, BELL for 0 to 5. -/
def State.fixedCode (s : State) (i : Nat) : FiveUnit := (Shadow.read s.setup (0x18 + i)).truncate 5
def State.codeLtrs (s : State) : FiveUnit := s.fixedCode 0
def State.codeFigs (s : State) : FiveUnit := s.fixedCode 1
def State.codeCr (s : State) : FiveUnit := s.fixedCode 2
def State.codeLf (s : State) : FiveUnit := s.fixedCode 3
def State.codeSpace (s : State) : FiveUnit := s.fixedCode 4
def State.codeBell (s : State) : FiveUnit := s.fixedCode 5

/-- The MINUTE edge select: 0 off, 1 rising, 2 falling, 3 both. -/
def State.edgeSelect (s : State) : Nat := (Shadow.read s.setup 0x20).toNat

/-! ### Window entries (Table 2-3) -/

def Setup.windowBase (m : List Host.Cell) (w : WindowId) : Nat := leNat (Shadow.bytes m (EntryId.window w).base 4)
def Setup.windowCode (m : List Host.Cell) (w : WindowId) : Nat := (Shadow.read m ((EntryId.window w).base + 8)).toNat
/-- The size of a window: 4 KiB × 2^code (R35). -/
def Setup.windowSize (m : List Host.Cell) (w : WindowId) : Nat := 4096 * 2 ^ Setup.windowCode m w
def State.windowBase (s : State) (w : WindowId) : Nat := Setup.windowBase s.setup w
def State.windowSize (s : State) (w : WindowId) : Nat := Setup.windowSize s.setup w
def State.windowAgency (s : State) (w : WindowId) : AgencyId :=
  Fin.ofNat 16 (Shadow.read s.setup ((EntryId.window w).base + 9)).toNat
/-- The translation page of a window: 0 to 3, or none for FFh. -/
def State.windowPage (s : State) (w : WindowId) : Option Nat :=
  let p := (Shadow.read s.setup ((EntryId.window w).base + 10)).toNat
  if p = 255 then none else some p
/-- The reserve of a window, in eighths of its size. -/
def State.windowReserve (s : State) (w : WindowId) : Nat := (Shadow.read s.setup ((EntryId.window w).base + 11)).toNat

/-- Whether an address lies in a window's range (R35). -/
def State.inWindow (s : State) (w : WindowId) (a : Addr) : Bool :=
  decide (s.windowBase w ≤ a.toNat ∧ a.toNat < s.windowBase w + s.windowSize w)

/-! ### Trunk entries (Table 2-4) -/

/-- The channel slot count N of a trunk. -/
def Setup.slotCount (m : List Host.Cell) (t : TrunkId) : Nat := (Shadow.read m ((EntryId.trunk t).base + 16)).toNat
/-- The desk number of slot `k`, 1 to 15, in a trunk's slot map. -/
def Setup.slotDesk (m : List Host.Cell) (t : TrunkId) (k : Nat) : Nat :=
  (Shadow.read m ((EntryId.trunk t).base + (k - 1))).toNat
def State.slotCount (s : State) (t : TrunkId) : Nat := Setup.slotCount s.setup t
def State.slotNumber (s : State) (t : TrunkId) (k : Nat) : Nat := Setup.slotDesk s.setup t k
/-- The desk mapped in slot `k`, none for a spare slot. -/
def State.slotDesk (s : State) (t : TrunkId) (k : Nat) : Option DeskId := deskOfNumber (s.slotNumber t k)
/-- The slots 1 to N of a trunk, in ascending order. -/
def Setup.slots (m : List Host.Cell) (t : TrunkId) : List Nat := (List.range (Setup.slotCount m t)).map (· + 1)
/-- The desks of a trunk, in ascending slot order (R185). -/
def State.trunkDesks (s : State) (t : TrunkId) : List DeskId := (Setup.slots s.setup t).filterMap (s.slotDesk t)
def State.rateClass (s : State) (t : TrunkId) : Nat := (Shadow.read s.setup ((EntryId.trunk t).base + 17)).toNat
def State.ownStation (s : State) (t : TrunkId) : Nat := (Shadow.read s.setup ((EntryId.trunk t).base + 18)).toNat
def State.linkSelect (s : State) (t : TrunkId) : Nat := (Shadow.read s.setup ((EntryId.trunk t).base + 19)).toNat
/-- The bring-up limit in seconds, 0 for none. -/
def State.bringUpLimit (s : State) (t : TrunkId) : Nat := (Shadow.read s.setup ((EntryId.trunk t).base + 20)).toNat
/-- The part's own more bit: whether a slot 1 to N names a desk (R174). -/
def State.ownMore (s : State) (t : TrunkId) : Bool :=
  (Setup.slots s.setup t).any fun k => decide (s.slotNumber t k ≠ 0)

/-! ### Desk entries (Table 2-5) -/

def State.classRefused (s : State) (d : DeskId) (c : StoryClass) : Bool :=
  (Shadow.read s.setup (EntryId.desk d).base).getLsbD c.code
def State.agencyRefused (s : State) (d : DeskId) (a : AgencyId) : Bool :=
  (leNat (Shadow.bytes s.setup ((EntryId.desk d).base + 2) 2)).testBit a.val
/-- The column limit of a desk; 0 in the shadow means 69 (R83). -/
def State.columnLimit (s : State) (d : DeskId) : Nat :=
  let c := (Shadow.read s.setup ((EntryId.desk d).base + 8)).toNat
  if c = 0 then 69 else c
def State.feedLines (s : State) (d : DeskId) : Nat := (Shadow.read s.setup ((EntryId.desk d).base + 9)).toNat

/-! ### Agencies, phrases, code pages and the conversion table -/

/-- The counted letters of an agency (R112). -/
def State.agencyLetters (s : State) (a : AgencyId) : List Byte :=
  Shadow.bytes s.setup (EntryId.agency a).base (min 4 (Shadow.read s.setup ((EntryId.agency a).base + 4)).toNat)
/-- The counted sign-off characters of an agency (R113). -/
def State.signOff (s : State) (a : AgencyId) : List Byte :=
  Shadow.bytes s.setup ((EntryId.agency a).base + 8) (min 8 (Shadow.read s.setup ((EntryId.agency a).base + 5)).toNat)
/-- The characters of a phrase (Table 2-7). -/
def State.phrase (s : State) (p : Fin 11) : List Byte :=
  Shadow.bytes s.setup ((EntryId.phrase p).base + 1) (min 31 (Shadow.read s.setup (EntryId.phrase p).base).toNat)
/-- The house byte into which a code page translates a written byte. -/
def State.codePage (s : State) (page : Nat) (b : Byte) : Byte :=
  Shadow.read s.setup (0x600 + 0x100 * page + b.toNat)
/-- The conversion of a house byte. -/
def State.conversion (s : State) (b : Byte) : Byte := Shadow.read s.setup (0xA00 + b.toNat)

end Sys2Proof.Machine
end

