-- ==== Sys2Proof/Machine/Span.lean ====
section
/-!
DEFINITION. The held span of a window, its guard and its room (R48), and the enabled bytes of a standing request.
-/

namespace Sys2Proof.Machine

/-- The guard of a window: the origin of the story at the head of its list (R48). -/
def State.guard (s : State) (w : WindowId) : Option Addr :=
  (s.window w).stories.head?.map fun h => (s.story h).origin

/-- The room of a window: the whole size while its list is empty, otherwise the distance from the intake position
forward to the guard, counted circularly (R48). -/
def State.room (s : State) (w : WindowId) : Nat :=
  match s.guard w with
  | none => s.windowSize w
  | some g =>
    if (s.window w).intake.toNat ≤ g.toNat then g.toNat - (s.window w).intake.toNat
    else g.toNat + s.windowSize w - (s.window w).intake.toNat

/-- Whether an address lies in a window's held span: in the window, and nearer above the guard than the span's length
(R48). An empty list has no span. -/
def State.inHeldSpan (s : State) (w : WindowId) (a : Addr) : Bool :=
  match s.guard w with
  | none => false
  | some g =>
    s.inWindow w a &&
      decide ((a.toNat + s.windowSize w - g.toNat) % s.windowSize w < s.windowSize w - s.room w)

/-- The address after one of a window, wrapping at the window's end (R35). -/
def State.nextInWindow (s : State) (w : WindowId) (a : Addr) : Addr :=
  if a.toNat + 1 = s.windowBase w + s.windowSize w then BitVec.ofNat 28 (s.windowBase w) else a + 1

/-- The enabled bytes of a request: those of a write; a read has none. -/
def requestBytes : BusRequest → List (Addr × Byte)
  | .read _ _ => []
  | .write a beats => enabledBytes a beats

/-- Whether the addresses of enabled bytes follow each other without a gap. -/
def contiguous : List (Addr × Byte) → Bool
  | [] => true
  | [_] => true
  | x :: y :: rest => decide (y.1 = x.1 + 1) && contiguous (y :: rest)

/-- Whether a write is in sequence in a window: contiguous enabled bytes from the intake position (R38). -/
def State.inSequence (s : State) (w : WindowId) (bytes : List (Addr × Byte)) : Bool :=
  contiguous bytes && decide (bytes.head?.map (·.1) = some (s.window w).intake)

/-- The address after the last enabled byte of a window write, wrapping at the window's end. -/
def State.afterLast (s : State) (w : WindowId) (bytes : List (Addr × Byte)) : Addr :=
  match bytes.getLast? with
  | none => (s.window w).intake
  | some b => s.nextInWindow w b.1

/-- Whether a window write finds no room: in sequence, as many enabled bytes as the room or more (R38 step 3); out of
sequence, its last enabled byte just before the guard (R39). An empty list always has room. -/
def State.noRoom (s : State) (w : WindowId) (bytes : List (Addr × Byte)) : Bool :=
  match s.guard w with
  | none => false
  | some g =>
    if s.inSequence w bytes then decide (s.room w ≤ bytes.length)
    else decide (s.afterLast w bytes = g)

end Sys2Proof.Machine
end

