-- ==== Sys2Proof/Machine/Flags.lean ====
section
/-!
DEFINITION. The flags and latches that follow other state: the preempt flag of a desk (R94), the reserve-low latch of a
window (R52), the clearing of a RING_FULL hold with the room (R50), and what the ALERT and NOTICE pins drive (R192).
-/

namespace Sys2Proof.Machine

/-! ### The preempt flag (R94) -/

/-- Whether a current item is one a flash can break: a STORY item of a class other than FLASH, in HEADER or TEXT. -/
def State.breakable (s : State) (c : SendContext) : Bool :=
  decide (c.kind = .story) && decide ((s.story c.handle).cls ≠ .flash) &&
    match c.segment with
    | .header => true
    | .text => true
    | .trailer => false
    | .notice _ _ _ => false

/-- Whether the head of a desk queue is a STORY entry of class FLASH. -/
def flashHead (q : List DeskEntry) : Bool :=
  match q.head? with
  | none => false
  | some e => decide (e.kind = .story ∧ e.cls = .flash)

/-- The four conditions under which a desk's preempt flag stands (R94). -/
def State.flashDue (s : State) (d : DeskId) : Bool :=
  let k := s.desk d
  k.isOpen && !k.held && k.saved.isNone &&
    (match k.context with
     | none => false
     | some c => s.breakable c) &&
    flashHead k.queue

/-- The flag test of R94 at one desk. -/
def State.testFlag (s : State) (d : DeskId) : State :=
  s.onDesk d fun k => { k with preempt := s.flashDue d }

/-- The flag test of R94 at every desk. -/
def State.testFlags (s : State) : State := allDesks.foldl State.testFlag s

/-! ### The reserve-low latch (R52) and RING_FULL holds (R50) -/

/-- The reserve threshold of a window, in bytes. -/
def State.threshold (s : State) (w : WindowId) : Nat := s.windowReserve w * s.windowSize w / 8

/-- The reserve test of one window: the latch sets with one report when the room is below the threshold, and clears
without one when it is not (R52). -/
def State.testReserve (s : State) (w : WindowId) : State :=
  if s.room w < s.threshold w then
    if (s.window w).reserveLow then s
    else
      (s.onWindow w fun k => { k with reserveLow := true }).reportPlain .windowLow (byteOf w.val)
        (leBytes 3 (s.room w))
  else s.onWindow w fun k => { k with reserveLow := false }

/-- The end of a hold because its cause cleared: the timer stops and the request is ready again (R12). -/
def State.clearHold (s : State) : State := { s with hold := none }

/-- A RING_FULL hold clears once the held write finds room (R50). -/
def State.testRingHold (s : State) : State :=
  match s.hold, s.port with
  | some ⟨.ringFull w, _, _⟩, some p => if s.noRoom w (requestBytes p.request) then s else s.clearHold
  | _, _ => s

/-- What follows a change of room in any window: the reserve tests, in window order, and the RING_FULL hold (R48). -/
def State.testRooms (s : State) : State := (allWindows.foldl State.testReserve s).testRingHold

/-- A TABLE_FULL hold clears in the event in which a story becomes FREE or SPENT (R51). -/
def State.clearTableHold (s : State) : State :=
  match s.hold with
  | some ⟨.tableFull _ _, _, _⟩ => s.clearHold
  | _ => s

/-- A TABLE_FULL or RING_FULL hold of a write to a window clears when the window becomes DISABLED (R50, R51). -/
def State.clearWindowHold (s : State) (w : WindowId) : State :=
  match s.hold with
  | some ⟨.tableFull v _, _, _⟩ => if v = w then s.clearHold else s
  | some ⟨.ringFull v, _, _⟩ => if v = w then s.clearHold else s
  | _ => s

/-! ### The ALERT and NOTICE pins (R192) -/

/-- What an output line does. -/
inductive Drive where
  | high
  | low
  | released
  deriving DecidableEq, Repr

/-- The drive of a line from its flag and its polarity (1 active low) and drive (1 open-drain) bits. -/
def lineDrive (flag activeLow openDrain : Bool) : Drive :=
  if flag then (if activeLow then .low else .high)
  else if openDrain then .released
  else if activeLow then .high
  else .low

/-- The byte of general setup word 1 that holds polarity and drive (Table 2-2). -/
def State.lineSetup (s : State) : Byte := Shadow.read s.setup 12

/-- What the ALERT pin drives. -/
def State.alertPin (s : State) : Drive :=
  lineDrive s.writer.alert (s.lineSetup.getLsbD 0) (s.lineSetup.getLsbD 1)

/-- What the NOTICE pin drives. -/
def State.noticePin (s : State) : Drive :=
  lineDrive s.writer.notice (s.lineSetup.getLsbD 2) (s.lineSetup.getLsbD 3)

end Sys2Proof.Machine
end

