-- ==== Sys2Proof/Machine/Records.lean ====
section
/-!
DEFINITION. The life of a story record in the story table (Chapter 4): allocation and reclaim (R62), abandonment (R46,
R63), becoming SPENT (R78) and FREE (R79), and the completion and spent lists (R61).
-/

namespace Sys2Proof.Machine

/-- The spent list: the members of the completion list in state SPENT, in completion order (R61). -/
def State.spentList (s : State) : List HandleId :=
  s.completion.filter fun h => decide ((s.story h).state = .spent)

/-- The state of a story changes. -/
def State.setStoryState (s : State) (h : HandleId) (st : StoryState) : State :=
  s.onStory h fun r => { r with state := st }

/-- A handle leaves its window story list (R47). -/
def State.leaveWindowList (s : State) (h : HandleId) : State :=
  s.onWindow (s.story h).window fun k => { k with stories := k.stories.erase h }

/-- A record as it is when cleared: FREE, its generation kept (R59, R63, R79). -/
def Story.cleared (r : Story) : Story := { generation := r.generation }

/-- A record becomes FREE: it leaves every list of the part, its fields are cleared and its generation kept, and a
TABLE_FULL hold clears (R63, R79). -/
def State.freeStory (s : State) (h : HandleId) : State :=
  (({ s.leaveWindowList h with completion := s.completion.erase h } : State).onStory h Story.cleared).clearTableHold

/-- STORY_DONE with the final state of a story and how many desks are DONE, CUT and DROPPED (R78, R79). -/
def State.reportDone (s : State) (h : HandleId) (final : StoryState) : State :=
  let r := s.story h
  s.reportStory .storyDone (byteOf r.window.val) h
    [byteOf final.code, byteOf (r.countMarks .done), byteOf (r.countMarks .cut), byteOf (r.countMarks .dropped)]

/-- A LIVE story becomes SPENT: it leaves its window story list, joins the spent list and is reported (R78). -/
def State.spendStory (s : State) (h : HandleId) : State :=
  (((s.setStoryState h .spent).leaveWindowList h).reportDone h .spent).clearTableHold

/-- Whether none of a story's marks is QUEUED or ACTIVE and it has no holder (R78). -/
def Story.finished (r : Story) : Bool :=
  decide (r.countMarks .queued = 0) && decide (r.countMarks .active = 0) && decide (r.holders = 0)

/-- The transitions of R78 and R79, as a story's marks and holders then stand. -/
def State.settleStory (s : State) (h : HandleId) : State :=
  match (s.story h).state with
  | .live => if (s.story h).finished then s.spendStory h else s
  | .killed => if (s.story h).holders = 0 then (s.reportDone h .killed).freeStory h else s
  | .superseded => if (s.story h).holders = 0 then (s.reportDone h .superseded).freeStory h else s
  | .free => s
  | .opened => s
  | .held => s
  | .spent => s

/-- The record that R62 gives a new story: the lowest FREE handle, or the head of the spent list. -/
def State.entryToGive (s : State) : Option HandleId :=
  match allHandles.find? (fun h => decide ((s.story h).state = .free)) with
  | some h => some h
  | none => s.spentList.head?

/-- A record is allocated to a story that a START byte opens in a window: its generation rises by one, its fields are
cleared, and its window, agency and origin are recorded. A reclaimed handle leaves the completion list (R41, R62). -/
def State.allocate (s : State) (h : HandleId) (w : WindowId) (origin : Addr) : State :=
  ({ s with completion := s.completion.erase h } : State).onStory h fun r =>
    { generation := r.generation + 1, state := .opened, window := w, agency := s.windowAgency w, origin := origin }

/-- The parser drops what it has gathered of a story: lead accumulator, text count and extents (R46). -/
def State.dropGathered (s : State) (w : WindowId) : State :=
  s.onWindow w fun k => { k with lead := [], textCount := 0, extents := [] }

/-- Reasons for which an OPEN story is abandoned (Table 3-5). -/
inductive AbandonReason where
  | badSerial
  | badClass
  | badDesk
  | badSlug
  | badMode
  | badReference
  | badEmbargo
  | fieldCount
  | leadTooLong
  | startInLead
  | endInLead
  | startInText
  | textTooLong
  | sequence
  | windowFull
  | tableFull
  | windowDisabled
  deriving DecidableEq, Repr

/-- The codes of Table 3-5. -/
def AbandonReason.code : AbandonReason → Nat
  | .badSerial => 1
  | .badClass => 2
  | .badDesk => 3
  | .badSlug => 4
  | .badMode => 5
  | .badReference => 6
  | .badEmbargo => 7
  | .fieldCount => 8
  | .leadTooLong => 9
  | .startInLead => 10
  | .endInLead => 11
  | .startInText => 12
  | .textTooLong => 13
  | .sequence => 14
  | .windowFull => 15
  | .tableFull => 16
  | .windowDisabled => 17

/-- The OPEN story of a window: its list has it at the tail (R47). -/
def State.openStory (s : State) (w : WindowId) : Option HandleId :=
  (s.window w).stories.find? fun h => decide ((s.story h).state = .opened)

/-- The OPEN story of a window, if there is one, is abandoned: STORY_ABANDONED, FREE, off the list, and what the parser
gathered is dropped (R46, R63). -/
def State.abandonOpen (s : State) (w : WindowId) (reason : AbandonReason) : State :=
  match s.openStory w with
  | none => s
  | some h =>
    ((s.reportStory .storyAbandoned (byteOf w.val) h
      (byteOf reason.code :: addrBytes (s.story h).origin)).freeStory h).dropGathered w

end Sys2Proof.Machine
end

