-- ==== Sys2Proof/Machine/Queues.lean ====
section
/-!
DEFINITION. The dispatcher's desk queues (Chapter 5): insertion into a queue with room or full (R88, R89), replacement
(R90), removal (R91), the follow-on places (R93), and the placement filter (R69).
-/

namespace Sys2Proof.Machine

/-- A class is equal to another or higher, the code of a higher class being lower (R87). -/
def StoryClass.atLeast (a b : StoryClass) : Bool := decide (a.code ≤ b.code)

/-- A queue with an entry placed directly behind the last entry of equal or higher class, or at the head (R88). -/
def placeEntry (e : DeskEntry) : List DeskEntry → List DeskEntry
  | [] => [e]
  | x :: rest =>
    if (x :: rest).any (fun y => y.cls.atLeast e.cls) then x :: placeEntry e rest else e :: x :: rest

/-- An entry joins a queue that has room: for a STORY entry the mark becomes QUEUED; a holder is added (R88). -/
def State.joinQueue (s : State) (d : DeskId) (e : DeskEntry) : State :=
  let s := (s.onDesk d fun k => { k with queue := placeEntry e k.queue }).addHolder e.handle
  match e.kind with
  | .story => s.setMark e.handle d .queued
  | .killNotice => s

/-- A STORY entry's mark becomes DROPPED; a KILL_NOTICE entry leaves its story's marks (R89, R91). -/
def State.dropMark (s : State) (d : DeskId) (e : DeskEntry) : State :=
  match e.kind with
  | .story => s.setMark e.handle d .dropped
  | .killNotice => s

/-- DESK_DROP: cause 1 DISPLACED with the displacing handle, 2 REFUSED with none (R89). -/
def State.reportDrop (s : State) (d : DeskId) (e : DeskEntry) (displacedBy : Option HandleId) : State :=
  s.reportStory .deskDrop (deskSubject d) e.handle
    [byteOf e.kind.code, byteOf e.cls.code, byteOf (if displacedBy.isSome then 1 else 2),
     match displacedBy with
     | some h => byteOf h.val
     | none => noneByte]

/-- The tail entry of a full queue is displaced by a new one: its holder is released, it is reported, and the
transitions of its story are applied at once (R89). -/
def State.displaceTail (s : State) (d : DeskId) (tail : DeskEntry) (by_ : HandleId) : State :=
  let s := s.onDesk d fun k => { k with queue := k.queue.dropLast }
  let s := (s.releaseHolder tail.handle).dropMark d tail
  (s.reportDrop d tail (some by_)).settleStory tail.handle

/-- The most entries a desk queue holds (R87). -/
def queueLimit : Nat := 32

/-- An insertion request of the story table (R88); a full queue displaces its tail or refuses the entry (R89). -/
def State.insertEntry (s : State) (d : DeskId) (e : DeskEntry) : State :=
  if (s.desk d).queue.length < queueLimit then s.joinQueue d e
  else
    match (s.desk d).queue.getLast? with
    | none => s.joinQueue d e
    | some tail =>
      if tail.cls.atLeast e.cls then (s.dropMark d e).reportDrop d e none
      else (s.displaceTail d tail e.handle).joinQueue d e

/-- A STORY entry for a story of the table, with its class. -/
def State.storyEntry (s : State) (h : HandleId) : DeskEntry :=
  { handle := h, kind := .story, cls := (s.story h).cls }

/-- A follow-on item for a story of the table. -/
def State.followOn (s : State) (h : HandleId) : FollowOn := { handle := h, cls := (s.story h).cls }

/-- Whether a follow-on place holds an item naming a handle. -/
def namesFollowOn (f : Option FollowOn) (h : HandleId) : Bool := decide (f.map FollowOn.handle = some h)

/-- A removal request: the entry naming the handle leaves the queue or either follow-on place, its holder is released
and its mark becomes DROPPED (R91, R93). -/
def State.removeEntry (s : State) (d : DeskId) (h : HandleId) : State :=
  let s := s.onDesk d fun k =>
    if namesFollowOn k.directNext h then { k with directNext := none }
    else if namesFollowOn k.savedFollowOn h then { k with savedFollowOn := none }
    else { k with queue := k.queue.filter fun e => decide (e.handle ≠ h) }
  (s.releaseHolder h).setMark h d .dropped

/-- A replacement request: the new story's entry takes the place of the old one's, in the queue or in a follow-on place
(R90, R93). -/
def State.replaceEntry (s : State) (d : DeskId) (old new : HandleId) : State :=
  let e := s.storyEntry new
  let f := s.followOn new
  let s := s.onDesk d fun k =>
    if namesFollowOn k.directNext old then { k with directNext := some f }
    else if namesFollowOn k.savedFollowOn old then { k with savedFollowOn := some f }
    else { k with queue := k.queue.map fun x => if x.handle = old then e else x }
  (((s.releaseHolder old).setMark old d .dropped).addHolder new).setMark new d .queued

/-- Whether a desk is kept for a story placed as NEW: OPEN, and refusing neither its class nor its agency (R69). -/
def State.desksKeep (s : State) (h : HandleId) (d : DeskId) : Bool :=
  (s.desk d).isOpen && !s.classRefused d (s.story h).cls && !s.agencyRefused d (s.story h).agency

/-- Whether a selector names a desk; ALL means desks 1 to 24 (R69). -/
def Selector.names : Selector → DeskId → Bool
  | .all, _ => true
  | .desks set, d => set.contains d

/-- The placement of a story as NEW at one desk (R69). -/
def State.placeNewAt (s : State) (h : HandleId) (d : DeskId) : State :=
  if (s.story h).selector.names d && s.desksKeep h d then s.insertEntry d (s.storyEntry h) else s

end Sys2Proof.Machine
end

