-- ==== Sys2Proof/Machine/Layouts.lean ====
section
/-!
DEFINITION. The fixed layouts of the lines the part prints (Tables 6-3 and 6-4, R113) and the codes that each code group
makes (R107, R109, R110).
-/

namespace Sys2Proof.Machine

/-! ### Layouts -/

/-- A number as four house digits with leading zeros (R112). -/
def fourDigits (n : Nat) : List Byte :=
  [byteOf (0x30 + n / 1000 % 10), byteOf (0x30 + n / 100 % 10), byteOf (0x30 + n / 10 % 10), byteOf (0x30 + n % 10)]

/-- Characters as groups. -/
def charGroups (bytes : List Byte) : List Group := bytes.map Group.char

/-- An element made of a space and a phrase, left out whole when the phrase has length 0 (R112). -/
def State.spacePhrase (s : State) (p : Fin 11) : List Group :=
  if s.phrase p = [] then [] else Group.space :: charGroups (s.phrase p)

/-- BELL groups of a header by class (Table 6-3). -/
def headerBells : StoryClass → Nat
  | .flash => 5
  | .bulletin => 3
  | .urgent => 1
  | .routine => 0
  | .deferred => 0

/-- The class word or kill word of a header (Table 6-3, order 5). -/
def State.headerWord (s : State) (r : Story) : List Group :=
  match r.mode with
  | .kill => s.spacePhrase 6
  | .new | .writeThru =>
    match r.cls with
    | .flash => s.spacePhrase 0
    | .bulletin => s.spacePhrase 1
    | .urgent => s.spacePhrase 2
    | .routine => []
    | .deferred => []

/-- The write-through word and reference serial of a header (Table 6-3, orders 6 and 7). -/
def State.headerReference (s : State) (r : Story) : List Group :=
  match r.mode with
  | .writeThru => s.spacePhrase 3 ++ Group.space :: charGroups (fourDigits (r.refSerial.getD 0))
  | .new => []
  | .kill => []

/-- The groups of a story's header (Table 6-3). -/
def State.headerLayout (s : State) (h : HandleId) : List Group :=
  let r := s.story h
  [Group.opening] ++ List.replicate (headerBells r.cls) Group.bell ++ charGroups (s.agencyLetters r.agency) ++
    Group.space :: charGroups (fourDigits r.serial) ++ s.headerWord r ++ s.headerReference r ++
    Group.space :: charGroups r.slug ++ [Group.lineEnd]

/-- The groups of a trailer; a restarted one begins with its opening group, any other with a line-end group if the column
is not 0 (R113, R125). -/
def State.trailerLayout (s : State) (d : DeskId) (c : SendContext) (restarted : Bool) : List Group :=
  (if restarted then [Group.opening] else if (s.desk d).column ≠ 0 then [Group.lineEnd] else []) ++
    charGroups (s.signOff (s.story c.handle).agency) ++ [Group.lineEnd] ++ List.replicate c.feedLines Group.feed

/-- The phrase of a notice kind (Table 6-5). -/
def NoticeKind.phrase : NoticeKind → Fin 11
  | .breakNotice => 4
  | .resume => 5
  | .correction => 7
  | .kill => 6
  | .textLost => 9
  | .killNotice => 6
  | .restored => 8

/-- Whether a notice is left out whole: its phrase has length 0, and for RESUME phrase 10 too (R114). -/
def State.noticeLeftOut (s : State) (k : NoticeKind) : Bool :=
  decide (s.phrase k.phrase = []) &&
    match k with
    | .resume => decide (s.phrase 10 = [])
    | _ => true

/-- Whether a notice has the three BELL groups (Table 6-4). -/
def NoticeKind.hasBells : NoticeKind → Bool
  | .kill => true
  | .killNotice => true
  | _ => false

/-- The groups of a notice line naming a story (Table 6-4). -/
def State.noticeLayout (s : State) (k : NoticeKind) (h : HandleId) : List Group :=
  let r := s.story h
  [Group.opening] ++ List.replicate (if k.hasBells then 3 else 0) Group.bell ++
    (if s.phrase k.phrase = [] then [] else charGroups (s.phrase k.phrase) ++ [Group.space]) ++
    charGroups (s.agencyLetters r.agency) ++ Group.space :: charGroups (fourDigits r.serial) ++
    Group.space :: charGroups r.slug ++ (if k = .resume then s.spacePhrase 10 else []) ++ [Group.lineEnd]

/-! ### Codes of a group -/

/-- What a desk prints with: shift state and column (R103). -/
structure PrintState where
  shift : Shift
  column : Nat
  deriving DecidableEq, Repr

/-- The codes of a group, the print state after it, and whether it folded the line (R109). -/
structure GroupCodes where
  codes : List FiveUnit
  print : PrintState
  folded : Bool
  deriving DecidableEq, Repr

/-- CR and LF (R110). -/
def State.lineEndCodes (s : State) : List FiveUnit := [s.codeCr, s.codeLf]

/-- A code that occupies a column, with the shift code before it, folded to a new line when the column is at the limit
(R109). -/
def State.columnCode (s : State) (limit : Nat) (p : PrintState) (shiftCode : List FiveUnit) (shift : Shift)
    (code : FiveUnit) : GroupCodes :=
  if p.column = limit then
    { codes := s.lineEndCodes ++ shiftCode ++ [code], print := { shift := shift, column := 1 }, folded := true }
  else
    { codes := shiftCode ++ [code], print := { shift := shift, column := p.column + 1 }, folded := false }

/-- The group of a house byte by its conversion entry: shift class 0 DROP, 1 LETTERS, 2 FIGURES, 3 EITHER (R109). -/
def State.charCodes (s : State) (limit : Nat) (p : PrintState) (b : Byte) : GroupCodes :=
  let entry := s.conversion b
  let code : FiveUnit := entry.truncate 5
  match (entry.toNat / 32) % 4 with
  | 0 => { codes := [], print := p, folded := false }
  | 1 => s.columnCode limit p (if p.shift = .figures then [s.codeLtrs] else []) .letters code
  | 2 => s.columnCode limit p (if p.shift = .letters then [s.codeFigs] else []) .figures code
  | _ => s.columnCode limit p [] p.shift code

/-- The codes of a group (R107, R109, R110). -/
def State.groupCodes (s : State) (limit : Nat) (p : PrintState) : Group → GroupCodes
  | .opening =>
    { codes := (if p.column ≠ 0 then s.lineEndCodes else []) ++ [s.codeLtrs],
      print := { shift := .letters, column := 0 }, folded := false }
  | .bell =>
    { codes := (if p.shift = .letters then [s.codeFigs] else []) ++ [s.codeBell],
      print := { shift := .figures, column := p.column }, folded := false }
  | .char b => s.charCodes limit p b
  | .space => s.columnCode limit p [] p.shift s.codeSpace
  | .lineEnd => { codes := s.lineEndCodes, print := { shift := p.shift, column := 0 }, folded := false }
  | .feed => { codes := [s.codeLf], print := p, folded := false }

/-- The house byte of a line end in text (R110). -/
def newline : Byte := 0x0A

/-- The group of a text byte: a line end for 0Ah, whatever its conversion entry (R110). -/
def textGroup (b : Byte) : Group := if b = newline then .lineEnd else .char b

end Sys2Proof.Machine
end

