-- ==== Sys2Proof/Machine/Fetch.lean ====
section
/-!
DEFINITION. The fetch engine's text blocks and staging blocks (Chapter 7): from offsets to addresses (R130), the next
text block (R131), eligibility (R132) and the emptying of staging with a raised epoch (R106, R138).
-/

namespace Sys2Proof.Machine

/-- The extent an offset lies in: the text offset at which the extent begins, and the extent (R130). -/
def extentAt (o : Nat) : Nat → List Extent → Option (Nat × Extent)
  | _, [] => none
  | at_, e :: rest => if o < at_ + e.length then some (at_, e) else extentAt o (at_ + e.length) rest

/-- The text block that holds a text offset (R130): the aligned 32-byte block of its address, and the offsets of its
extent that lie in it. -/
def Story.blockOf (r : Story) (o : Nat) : Option TextBlock :=
  match extentAt o 0 r.extents with
  | none => none
  | some (at_, e) =>
    let place := (e.start + BitVec.ofNat 28 (o - at_)).toNat % 32
    some
      { address := e.start + BitVec.ofNat 28 (o - at_) - BitVec.ofNat 28 place
        first := max at_ (o - place)
        last := min (at_ + e.length - 1) (o + (31 - place)) }

/-- The block a staging block holds or awaits. -/
def Staging.block : Staging → Option TextBlock
  | .empty => none
  | .requested b => some b
  | .full b _ => some b

/-- Whether a staging block is EMPTY. -/
def Staging.isEmpty : Staging → Bool
  | .empty => true
  | .requested _ => false
  | .full _ _ => false

/-- The block a staging block awaits, when it is REQUESTED. -/
def Staging.awaited : Staging → Option TextBlock
  | .empty => none
  | .requested b => some b
  | .full _ _ => none

/-- The highest offset of a desk's staging blocks (R131). -/
def Desk.highestStaged (k : Desk) : Option Nat :=
  match k.staging0.block, k.staging1.block with
  | none, none => none
  | some a, none => some a.last
  | none, some b => some b.last
  | some a, some b => some (max a.last b.last)

/-- The next text block of a desk's current item: after the staged block at the highest offsets, or at the text cursor
when both are EMPTY (R131). -/
def State.nextBlock (s : State) (d : DeskId) (c : SendContext) : Option TextBlock :=
  let r := s.story c.handle
  let o := match (s.desk d).highestStaged with
    | some last => last + 1
    | none => c.cursor
  if o < r.textCount then r.blockOf o else none

/-- The read a desk is eligible for: it is in TEXT, a staging block is EMPTY and it has a next text block (R132). -/
def State.eligibleRead (s : State) (d : DeskId) : Option TextBlock :=
  match (s.desk d).context with
  | none => none
  | some c =>
    match c.segment with
    | .text => if (s.desk d).staging0.isEmpty || (s.desk d).staging1.isEmpty then s.nextBlock d c else none
    | .header => none
    | .trailer => none
    | .notice _ _ _ => none

/-- A desk's staging blocks are emptied and its epoch is raised by one (R106, R138). -/
def Desk.raiseEpoch (k : Desk) : Desk :=
  { k with epoch := k.epoch + 1, staging0 := .empty, staging1 := .empty }

/-- The byte of a FULL staging block at a text offset in its valid range (R129). -/
def Staging.byteAt (g : Staging) (r : Story) (o : Nat) : Option Byte :=
  match g with
  | .empty => none
  | .requested _ => none
  | .full b data =>
    if b.first ≤ o ∧ o ≤ b.last then
      match extentAt o 0 r.extents with
      | none => none
      | some (at_, e) => data[(e.start + BitVec.ofNat 28 (o - at_)).toNat % 32]?
    else none

/-- The staged text byte at the cursor, when it is available (R107, R111). -/
def State.stagedByte (s : State) (d : DeskId) (c : SendContext) : Option Byte :=
  let r := s.story c.handle
  match (s.desk d).staging0.byteAt r c.cursor with
  | some b => some b
  | none => (s.desk d).staging1.byteAt r c.cursor

/-- A staging block whose last valid offset has been composed is handed back (R137). -/
def Staging.handBack (g : Staging) (o : Nat) : Staging :=
  match g with
  | .empty => .empty
  | .requested b => .requested b
  | .full b data => if b.last ≤ o then .empty else .full b data

/-- The older of a desk's REQUESTED blocks, the one at the lower offsets: 0 or 1 and its text block (R135). -/
def Desk.olderRequested (k : Desk) : Option (Bool × TextBlock) :=
  match k.staging0.awaited, k.staging1.awaited with
  | none, none => none
  | some a, none => some (false, a)
  | none, some b => some (true, b)
  | some a, some b => if a.first ≤ b.first then some (false, a) else some (true, b)

/-- The 32 bytes of a text block from the beats of a completion; bytes that the completion does not carry are free
values (log entry 3). -/
def blockBytes (use_ : Nat) (beats : List BeatData) : List Byte :=
  let bytes := beatsBytes beats
  (List.range 32).map fun i => (bytes[i]?).getD (Config.missingFetchByte use_ i)

end Sys2Proof.Machine
end

