-- ==== Sys2Proof/Machine/Composer.lean ====
section
/-!
DEFINITION. The desk sender (Chapter 6): beginning segments and notices (R111 to R116), the end of an item (R117), cuts
(R119, R120), the take of the next item (R96, R115, R123), flash breaks (R95, R122), composing a group (R107) and the
restore after a line loss (R125).
-/

namespace Sys2Proof.Machine

/-! ### Beginning a segment -/

/-- A desk's send context is put in place. -/
def State.putContext (s : State) (d : DeskId) (c : SendContext) : State :=
  s.onDesk d fun k => { k with context := some c }

/-- TRAILER begins, after TEXT or restarted (R113, R125). -/
def State.beginTrailer (s : State) (d : DeskId) (c : SendContext) (restarted : Bool) : State :=
  s.putContext d
    { c with segment := .trailer, layout := s.trailerLayout d c restarted, openingDone := !restarted }

/-- TEXT begins at an offset, with its opening group still to come when it is resumed or restored. A cursor at the text
count passes to TRAILER at once (R111). -/
def State.beginText (s : State) (d : DeskId) (c : SendContext) (offset : Nat) (openingDone : Bool) : State :=
  let c := { c with segment := .text, layout := [], cursor := offset, lineStart := offset, openingDone := openingDone }
  if offset < (s.story c.handle).textCount then s.putContext d c else s.beginTrailer d c false

/-- HEADER begins, with its cursor and line start at 0 (R112, R115). -/
def State.beginHeader (s : State) (d : DeskId) (c : SendContext) : State :=
  s.putContext d
    { c with segment := .header, layout := s.headerLayout c.handle, openingDone := false, cursor := 0, lineStart := 0 }

/-- An item ends: its holder is released and the send context becomes absent (R117). -/
def State.endItem (s : State) (d : DeskId) (c : SendContext) : State :=
  (s.releaseHolder c.handle).onDesk d fun k => { k with context := none }

/-- What follows a notice begins. A notice whose phrase is empty is left out whole and its own continuation follows in
the same event; END ends the item (R114, R115, R117). -/
def State.beginNext (s : State) (d : DeskId) (c : SendContext) : Continuation → State
  | .finish => s.endItem d c
  | .header => s.beginHeader d c
  | .text o => s.beginText d c o false
  | .trailer => s.beginTrailer d c true
  | .notice k h next =>
    if s.noticeLeftOut k then s.beginNext d c next
    else s.putContext d
      { c with segment := .notice k h next, layout := s.noticeLayout k h, openingDone := false }

/-- The transitions of R78 and R79 for a story, when its item at a desk has ended. -/
def State.settleEnded (s : State) (d : DeskId) (h : HandleId) : State :=
  if (s.desk d).context.isNone then s.settleStory h else s

/-- A fresh send context for an item; its segment is set when its first segment begins (R115). That its text cursor and
line start are 0 until TEXT begins, also while a notice comes first, is the model's choice (log entry 34). -/
def State.freshContext (s : State) (d : DeskId) (h : HandleId) (kind : ItemKind) : SendContext :=
  { handle := h, kind := kind, segment := .header, layout := [], openingDone := false, cursor := 0, lineStart := 0,
    columnLimit := s.columnLimit d, feedLines := s.feedLines d, underrunLatch := false }

/-! ### Cuts -/

/-- Every end tag is removed from a buffer; the codes stay (R119). -/
def untag (buffer : List BufferCode) : List BufferCode := buffer.map fun x => { x with endTag := false }

/-- The handle byte of a follow-on, FFh for none. -/
def followOnByte : Option HandleId → Byte
  | none => noneByte
  | some h => byteOf h.val

/-- A follow-on is given a holder at a desk and the mark QUEUED (R70). -/
def State.giveFollowOn (s : State) (d : DeskId) : Option HandleId → State
  | none => s
  | some h => (s.addHolder h).setMark h d .queued

/-- A cut of the current item: composition stops, end tags go, the epoch is raised and staging emptied, the mark becomes
CUT, STORY_CUT is reported, the follow-on takes the direct next place, and the cut notice begins (R119). -/
def State.cutCurrent (s : State) (d : DeskId) (c : SendContext) (notice : NoticeKind) (follow : Option HandleId) :
    State :=
  let s := s.onDesk d fun k => { k.raiseEpoch with buffer := untag k.buffer }
  let s := s.setMark c.handle d .cut
  let s := s.reportStory .storyCut (deskSubject d) c.handle
    [byteOf notice.code, 0, byteOf c.segment.code, followOnByte follow]
  let s := (s.giveFollowOn d follow).onDesk d fun k =>
    { k with directNext := match follow with
        | none => k.directNext
        | some h => some (s.followOn h) }
  s.beginNext d c (.notice notice c.handle .finish)

/-- A cut of the saved context: it records the notice, the mark becomes CUT, STORY_CUT is reported with SAVED, and the
follow-on takes the saved context's place (R120). -/
def State.cutSaved (s : State) (d : DeskId) (v : SavedContext) (notice : NoticeKind) (follow : Option HandleId) :
    State :=
  let s := s.onDesk d fun k => { k with saved := some { v with cutNotice := some notice } }
  let s := s.setMark v.handle d .cut
  let s := s.reportStory .storyCut (deskSubject d) v.handle
    [byteOf notice.code, 1, byteOf v.resume.code, followOnByte follow]
  (s.giveFollowOn d follow).onDesk d fun k =>
    { k with savedFollowOn := match follow with
        | none => k.savedFollowOn
        | some h => some (s.followOn h) }

/-- Whether a send context is a STORY item of a handle. -/
def SendContext.isStory (c : SendContext) (h : HandleId) : Bool := decide (c.handle = h ∧ c.kind = .story)

/-- A cut order of the story table, carried out against the context that names the handle: the current item or the saved
context (R70, R119, R120). -/
def State.cutOrder (s : State) (d : DeskId) (h : HandleId) (notice : NoticeKind) (follow : Option HandleId) : State :=
  match (s.desk d).context, (s.desk d).saved with
  | some c, none => if c.isStory h then s.cutCurrent d c notice follow else s
  | some c, some v =>
    if c.isStory h then s.cutCurrent d c notice follow
    else if v.handle = h then s.cutSaved d v notice follow
    else s
  | none, some v => if v.handle = h then s.cutSaved d v notice follow else s
  | none, none => s

/-! ### Taking the next item (R96, R115) -/

/-- The continuation that a resume point is (R123). -/
def ResumePoint.continuation : ResumePoint → Continuation
  | .header => .header
  | .text o => .text o

/-- What a saved context begins with: its cut notice when it has been cut, its RESUME notice when not (R115, R120,
R123). -/
def SavedContext.first (v : SavedContext) : Continuation :=
  match v.cutNotice with
  | some n => .notice n v.handle .finish
  | none => .notice .resume v.handle v.resume.continuation

/-- The direct next item becomes the current item (R96). -/
def State.takeDirect (s : State) (d : DeskId) (f : FollowOn) : State :=
  let s := (s.onDesk d fun k => { k with directNext := none }).setMark f.handle d .active
  s.beginHeader d (s.freshContext d f.handle .story)

/-- The saved context becomes the current item; the follow-on of one that has been cut moves to the direct next place
(R96). -/
def State.takeSaved (s : State) (d : DeskId) (v : SavedContext) : State :=
  let s := s.onDesk d fun k =>
    if v.cutNotice.isSome then
      { k with saved := none, directNext := k.savedFollowOn, savedFollowOn := none }
    else { k with saved := none }
  (s.beginNext d (s.freshContext d v.handle .story) v.first).settleEnded d v.handle

/-- The queue head becomes the current item: a STORY item in its HEADER, its mark ACTIVE, or a KILL_NOTICE item in its
notice (R96, R115). -/
def State.takeHead (s : State) (d : DeskId) (e : DeskEntry) : State :=
  let s := s.onDesk d fun k => { k with queue := k.queue.tail }
  match e.kind with
  | .story =>
    let s := s.setMark e.handle d .active
    s.beginHeader d (s.freshContext d e.handle .story)
  | .killNotice =>
    (s.beginNext d (s.freshContext d e.handle .killNotice)
      (.notice .killNotice e.handle .finish)).settleEnded d e.handle

/-- A desk sender takes its next item: an OPEN desk without a current item, not HELD, takes the first of the direct next
item, the saved context and the queue head (R96). -/
def State.takeNext (s : State) (d : DeskId) : State :=
  let k := s.desk d
  if k.isOpen && k.context.isNone && !k.held then
    match k.directNext with
    | some f => s.takeDirect d f
    | none =>
      match k.saved with
      | some v => s.takeSaved d v
      | none =>
        match k.queue.head? with
        | some e => s.takeHead d e
        | none => s
  else s

/-! ### Flash break (R95, R122) -/

/-- The resume point of an item broken in HEADER or TEXT: its header, or the present line start (R122). -/
def SendContext.resumePoint (c : SendContext) : ResumePoint :=
  match c.segment with
  | .text => .text c.lineStart
  | .header => .header
  | .trailer => .header
  | .notice _ _ _ => .header

/-- The flash entry and current item of a desk whose flash break can be taken: the preempt flag is set and the opening
group of the segment has been composed (R122). -/
def State.breakReady (s : State) (d : DeskId) : Option (SendContext × DeskEntry) :=
  match (s.desk d).context, (s.desk d).queue.head? with
  | some c, some e => if (s.desk d).preempt && c.openingDone && s.flashDue d then some (c, e) else none
  | _, _ => none

/-- A flash break: the current item becomes the saved context, the flash at the queue head becomes current with a BREAK
notice, the epoch is raised and staging emptied, and FLASH_BREAK is reported (R95, R122). -/
def State.breakForFlash (s : State) (d : DeskId) (c : SendContext) (e : DeskEntry) : State :=
  let s := s.onDesk d fun k =>
    { k.raiseEpoch with
      queue := k.queue.tail
      saved := some { handle := c.handle, resume := c.resumePoint, cutNotice := none }
      preempt := false }
  let s := s.setMark e.handle d .active
  let flash := s.story e.handle
  let s := s.reportStory .flashBreak (deskSubject d) c.handle
    ([byteOf c.resumePoint.code] ++ leBytes 2 c.resumePoint.offset ++ [byteOf e.handle.val, flash.generation] ++
      leBytes 2 flash.serial)
  s.beginNext d (s.freshContext d e.handle .story) (.notice .breakNotice c.handle .header)

/-! ### Composing a group (R107) -/

/-- The most codes a character buffer holds (R108). -/
def bufferLimit : Nat := 8

/-- A group's codes join the buffer, the last one with the end tag when the group is the last of the item (R108). -/
def appendCodes (buffer : List BufferCode) (codes : List FiveUnit) (last : Bool) : List BufferCode :=
  buffer ++ codes.dropLast.map (fun x => { code := x, endTag := false }) ++
    (match codes.getLast? with
     | none => []
     | some x => [{ code := x, endTag := last }])

/-- The print state of a desk. -/
def Desk.print (k : Desk) : PrintState := { shift := k.shift, column := k.column }

/-- Whether a group's codes have room in a desk's buffer. -/
def Desk.hasRoom (k : Desk) (g : GroupCodes) : Bool := decide (k.buffer.length + g.codes.length ≤ bufferLimit)

/-- A group's codes are placed in a desk's buffer, and the desk's print state follows. -/
def State.placeGroup (s : State) (d : DeskId) (g : GroupCodes) (last : Bool) : State :=
  s.onDesk d fun k =>
    { k with buffer := appendCodes k.buffer g.codes last, shift := g.print.shift, column := g.print.column }

/-- The group after which an item has nothing more to compose carries the end tag: the last of a trailer or of a notice
whose continuation is END (R108). -/
def Segment.endsItem : Segment → Bool
  | .header => false
  | .text => false
  | .trailer => true
  | .notice _ _ next => decide (next = .finish)

/-- What follows the last group of a fixed layout: TEXT after a header, the continuation after a notice; an item whose
last group carries the end tag waits for it to leave (R114, R116). -/
def State.afterLayout (s : State) (d : DeskId) (c : SendContext) : State :=
  match c.segment with
  | .header => s.beginText d c 0 true
  | .text => s.putContext d c
  | .trailer => s.putContext d c
  | .notice _ _ next =>
    if next = .finish then s.putContext d c else (s.beginNext d c next).settleEnded d c.handle

/-- The next group of a header, trailer or notice is composed (R107, R112 to R114). -/
def State.composeLayout (s : State) (d : DeskId) (c : SendContext) : State :=
  match c.layout with
  | [] => s
  | g :: rest =>
    let codes := s.groupCodes c.columnLimit (s.desk d).print g
    if (s.desk d).hasRoom codes then
      let c := { c with layout := rest, openingDone := true }
      let s := s.placeGroup d codes (rest.isEmpty && c.segment.endsItem)
      if rest.isEmpty then s.afterLayout d c else s.putContext d c
    else s

/-- The text byte at the cursor is composed: the cursor moves on, the line start moves with a line end or a fold, staging
blocks composed to their last byte are handed back, and the text's end passes to TRAILER (R109 to R111, R137). -/
def State.composeByte (s : State) (d : DeskId) (c : SendContext) (b : Byte) : State :=
  let codes := s.groupCodes c.columnLimit (s.desk d).print (textGroup b)
  if (s.desk d).hasRoom codes then
    let lineStart := if b = newline then c.cursor + 1 else if codes.folded then c.cursor else c.lineStart
    let s := (s.placeGroup d codes false).onDesk d fun k =>
      { k with staging0 := k.staging0.handBack c.cursor, staging1 := k.staging1.handBack c.cursor }
    let c := { c with cursor := c.cursor + 1, lineStart := lineStart }
    if c.cursor < (s.story c.handle).textCount then s.putContext d c else s.beginTrailer d c false
  else s

/-- The next group of TEXT is composed: its opening group when it is still to come, or the staged byte at the cursor
(R107, R111). -/
def State.composeText (s : State) (d : DeskId) (c : SendContext) : State :=
  if c.openingDone then
    match s.stagedByte d c with
    | none => s
    | some b => s.composeByte d c b
  else
    let codes := s.groupCodes c.columnLimit (s.desk d).print .opening
    if (s.desk d).hasRoom codes then (s.placeGroup d codes false).putContext d { c with openingDone := true } else s

/-- The desk sender composes one group of its current item, when there is room for it and its byte is staged (R107). -/
def State.composeOne (s : State) (d : DeskId) : State :=
  match (s.desk d).context with
  | none => s
  | some c =>
    match c.segment with
    | .text => s.composeText d c
    | .header => s.composeLayout d c
    | .trailer => s.composeLayout d c
    | .notice _ _ _ => s.composeLayout d c

/-! ### Restore after a line loss (R125) -/

/-- The restart point of a restore, from the segment: TEXT at the present line start, HEADER and TRAILER from their
beginning, a notice from its beginning with its own continuation; an interrupted RESTORED notice is restarted once. -/
def SendContext.restart (c : SendContext) : Continuation :=
  match c.segment with
  | .header => .header
  | .text => .text c.lineStart
  | .trailer => .trailer
  | .notice k h next => if k = .restored then next else .notice k h next

/-- The send context at its restart point: the text cursor moves back to the line start (R125). -/
def SendContext.moveBack (c : SendContext) : SendContext :=
  match c.segment with
  | .header => c
  | .text => { c with cursor := c.lineStart }
  | .trailer => c
  | .notice _ _ _ => c

/-- The restore of a desk with a current item: buffer and staging emptied, epoch raised, a line end composed, and a
RESTORED notice before the restart point (R125). The line end is the first code sent, before the notice's opening group,
where R151 names the notice's first code (log entry 37). -/
def State.restoreItem (s : State) (d : DeskId) (c : SendContext) : State :=
  let codes := s.lineEndCodes
  let s := s.onDesk d fun k => { k.raiseEpoch with buffer := appendCodes [] codes false, column := 0 }
  (s.beginNext d c.moveBack (.notice .restored c.handle c.restart)).settleEnded d c.handle

/-- LINE is removed from a desk whose trunk has entered UP, and its current item is restored (R125, R186). A desk whose
set does not hold LINE is not restored. -/
def State.lineReturns (s : State) (d : DeskId) : State :=
  if (s.desk d).line then
    let s := s.onDesk d fun k => { k with line := false }
    match (s.desk d).context with
    | none => s
    | some c => s.restoreItem d c
  else s

end Sys2Proof.Machine
end

