-- ==== Sys2Proof/Machine/Release.lean ====
section
/-!
DEFINITION. Release and placement (R67 to R74), the host's KILL (R75, R76) and the completion of a story (R64).
-/

namespace Sys2Proof.Machine

/-- Whether a story is in a state in which a write-through or kill finds it (R68, R75). -/
def StoryState.isTarget : StoryState → Bool
  | .held => true
  | .live => true
  | .spent => true
  | .free => false
  | .opened => false
  | .killed => false
  | .superseded => false

/-- The target of a released write-through or kill: the newest story of the completion list that is HELD, LIVE or SPENT,
of the same agency, with the reference serial, and not the released story itself (R68). -/
def State.findTarget (s : State) (w : HandleId) : Option HandleId :=
  s.completion.reverse.find? fun t =>
    decide (t ≠ w) && (s.story t).state.isTarget && decide ((s.story t).agency = (s.story w).agency) &&
      decide (some (s.story t).serial = (s.story w).refSerial)

/-- A target becomes SUPERSEDED or KILLED. A HELD or LIVE one leaves its window story list; a SPENT one leaves the spent
list with its state (R71 to R76). -/
def State.retireTarget (s : State) (t : HandleId) (final : StoryState) : State :=
  (s.leaveWindowList t).setStoryState t final

/-- A story is placed as NEW, desk by desk (R69). -/
def State.placeNew (s : State) (h : HandleId) : State :=
  allDesks.foldl (fun s d => s.placeNewAt h d) s

/-- A write-through of a LIVE or SPENT target at one desk, by the target's mark there (R72). -/
def State.placeWriteThruAt (w t : HandleId) (s : State) (d : DeskId) : State :=
  if (s.desk d).isOpen then
    match s.markAt t d with
    | .queued =>
      if (s.story w).cls = (s.story t).cls then s.replaceEntry d t w
      else
        let s := s.removeEntry d t
        s.insertEntry d (s.storyEntry w)
    | .active => s.cutOrder d t .correction (some w)
    | .done => s.insertEntry d (s.storyEntry w)
    | .absent | .dropped | .cut => s.placeNewAt w d
  else s

/-- An agency kill of a LIVE or SPENT target at one desk, by the target's mark there (R74). -/
def State.placeKillAt (w t : HandleId) (s : State) (d : DeskId) : State :=
  if (s.desk d).isOpen then
    match s.markAt t d with
    | .queued => s.removeEntry d t
    | .active => s.cutOrder d t .kill (some w)
    | .done => s.insertEntry d (s.storyEntry w)
    | .absent | .dropped | .cut => s
  else s

/-- A host KILL of a LIVE or SPENT story at one desk, by its mark there (R76). -/
def State.hostKillAt (t : HandleId) (s : State) (d : DeskId) : State :=
  match s.markAt t d with
  | .queued => s.removeEntry d t
  | .active => s.cutOrder d t .kill none
  | .done =>
    if (s.desk d).isOpen then s.insertEntry d { handle := t, kind := .killNotice, cls := .bulletin } else s
  | .absent | .dropped | .cut => s

/-- The target found at release is recorded with its generation, and REFERENCE_UNKNOWN is reported when a write-through
or kill finds none (R67 step 2, R68). -/
def State.recordTarget (s : State) (w : HandleId) (target : Option HandleId) : State :=
  match target with
  | some t =>
    let g := (s.story t).generation
    s.onStory w fun r => { r with refHandle := some (t, g) }
  | none =>
    s.reportStory .referenceUnknown (byteOf (s.story w).window.val) w (leBytes 2 ((s.story w).refSerial.getD 0))

/-- The placement of a released write-through (R67 step 3, R69, R71, R72). -/
def State.placeWriteThru (s : State) (w : HandleId) : Option HandleId → State
  | none => s.placeNew w
  | some t =>
    if (s.story t).state = .held then (s.retireTarget t .superseded).placeNew w
    else (allDesks.foldl (State.placeWriteThruAt w t) s).retireTarget t .superseded

/-- The placement of a released agency kill (R67 step 3, R73, R74). -/
def State.placeKill (s : State) (w : HandleId) : Option HandleId → State
  | none => s
  | some t =>
    if (s.story t).state = .held then s.retireTarget t .killed
    else (allDesks.foldl (State.placeKillAt w t) s).retireTarget t .killed

/-- STORY_PLACED: the desks whose mark is QUEUED, the number of desks DROPPED, and the target's handle and generation,
FFh when there is none (R67). -/
def State.reportPlaced (s : State) (w : HandleId) (target : Option (HandleId × BitVec 8)) : State :=
  let r := s.story w
  s.reportStory .storyPlaced noneByte w
    (deskSetBytes (fun d => decide (r.marks[d] = .queued)) ++ [byteOf (r.countMarks .dropped)] ++
      (match target with
       | some (t, g) => [byteOf t.val, g]
       | none => [noneByte, noneByte]))

/-- The target of a story when it is released: none for a story of mode NEW (R67 step 2). -/
def State.targetAtRelease (s : State) (h : HandleId) : Option HandleId :=
  if (s.story h).mode = .new then none else s.findTarget h

/-- The placement of a released story by its mode and target (R67 step 3). -/
def State.placeReleased (s : State) (h : HandleId) (target : Option HandleId) : State :=
  match (s.story h).mode with
  | .new => s.placeNew h
  | .writeThru => (s.recordTarget h target).placeWriteThru h target
  | .kill => (s.recordTarget h target).placeKill h target

/-- The release of a story: LIVE, target, placement, STORY_PLACED, and the transitions of its target and of itself
(R67). -/
def State.releaseStory (s : State) (h : HandleId) : State :=
  let s := s.setStoryState h .live
  let target := s.targetAtRelease h
  let named := target.map fun t => (t, (s.story t).generation)
  let s := (s.placeReleased h target).reportPlaced h named
  let s := match target with
    | some t => s.settleStory t
    | none => s
  s.settleStory h

/-- The minute field of STORY_IN: the embargo minute, or FFFFh (R188). -/
def Story.embargoField (r : Story) : Nat := r.embargo.getD 0xFFFF

/-- STORY_IN: window, class, mode, and 1 when the story is held (R64). -/
def State.reportIn (s : State) (h : HandleId) (held : Bool) : State :=
  let r := s.story h
  s.report { kind := .storyIn, subject := byteOf r.window.val, handle := byteOf h.val, generation := r.generation,
             serial := r.serial, minute := r.embargoField,
             detail := [byteOf r.cls.code, byteOf r.mode.code, byteOf (bitOf held)] }

/-- Whether a completed story waits for its embargo: it has one, and it is not the present minute (R64). -/
def State.mustHold (s : State) (h : HandleId) : Bool :=
  match (s.story h).embargo with
  | none => false
  | some m => decide (m ≠ s.clock.minute)

/-- The END byte completes a story: text count and extents are recorded, the story joins the completion list, and it is
held or released, with STORY_IN first (R64). -/
def State.completeStory (s : State) (h : HandleId) (count : Nat) (extents : List Extent) : State :=
  let s := s.onStory h fun r => { r with textCount := count, extents := extents }
  let s := { s with completion := s.completion ++ [h] }
  if s.mustHold h then (s.setStoryState h .held).reportIn h true else (s.reportIn h false).releaseStory h

/-- The host's KILL of a HELD, LIVE or SPENT story (R75, R76). -/
def State.hostKill (s : State) (t : HandleId) : State :=
  if (s.story t).state = .held then (s.retireTarget t .killed).settleStory t
  else ((allDesks.foldl (State.hostKillAt t) s).retireTarget t .killed).settleStory t

/-- The release of one story by the clock's advance to a minute, when it is still HELD for it: EMBARGO_RELEASE first
(R66). -/
def State.releaseAt (m : Nat) (s : State) (h : HandleId) : State :=
  if (s.story h).state = .held ∧ (s.story h).embargo = some m then
    (s.reportStory .embargoRelease (byteOf (s.story h).window.val) h []).releaseStory h
  else s

/-- The stories HELD for a minute are released, in completion-list order (R66). -/
def State.releaseMinute (s : State) (m : Nat) : State := s.completion.foldl (State.releaseAt m) s

end Sys2Proof.Machine
end

