-- ==== Sys2Proof/Machine/Lead.lean ====
section
/-!
DEFINITION. The check of a lead: its seven fields and their forms (R43, Table 3-4).
-/

namespace Sys2Proof.Machine

/-- START, TEXT, END and FS of the house code (Table 3-2). -/
def houseStart : Byte := 0x01
def houseText : Byte := 0x02
def houseEnd : Byte := 0x03
def houseFs : Byte := 0x1F
def houseComma : Byte := 0x2C

/-- A list split at every occurrence of a byte: n occurrences give n + 1 parts. -/
def splitAtByte (sep : Byte) : List Byte → List (List Byte)
  | [] => [[]]
  | b :: rest =>
    if b = sep then [] :: splitAtByte sep rest
    else
      match splitAtByte sep rest with
      | [] => [[b]]
      | part :: parts => (b :: part) :: parts

/-- The value of a digit, 30h to 39h. -/
def digitValue (b : Byte) : Option Nat := if 0x30 ≤ b.toNat ∧ b.toNat ≤ 0x39 then some (b.toNat - 0x30) else none

/-- The number a run of digits writes, leading zeros allowed; none if a byte is no digit. -/
def numberFrom : Nat → List Byte → Option Nat
  | n, [] => some n
  | n, b :: rest =>
    match digitValue b with
    | none => none
    | some v => numberFrom (10 * n + v) rest

/-- A number of at least one and at most `most` digits. -/
def numberOf (most : Nat) (bytes : List Byte) : Option Nat :=
  if 1 ≤ bytes.length ∧ bytes.length ≤ most then numberFrom 0 bytes else none

/-- Field 2, the class letter. -/
def classOf (field : List Byte) : Option StoryClass :=
  match field.map BitVec.toNat with
  | [0x46] => some .flash
  | [0x42] => some .bulletin
  | [0x55] => some .urgent
  | [0x52] => some .routine
  | [0x44] => some .deferred
  | _ => none

/-- Field 5, the mode letter. -/
def modeOf (field : List Byte) : Option StoryMode :=
  match field.map BitVec.toNat with
  | [0x4E] => some .new
  | [0x57] => some .writeThru
  | [0x4B] => some .kill
  | _ => none

/-- The desks of a list of desk numbers, each 1 to 24 and none repeated. -/
def deskSet : List (List Byte) → Option (List DeskId)
  | [] => some []
  | item :: rest =>
    match (numberOf 2 item).bind deskOfNumber, deskSet rest with
    | some d, some set => if set.contains d then none else some (d :: set)
    | _, _ => none

/-- Field 3, the desk selector: the single number 0 for ALL, or a list of desks. -/
def selectorOf (field : List Byte) : Option Selector :=
  if numberOf 2 field = some 0 then some .all
  else (deskSet (splitAtByte houseComma field)).map Selector.desks

/-- Field 4, the slug: 0 to 24 printable characters. -/
def slugOf (field : List Byte) : Option (List Byte) :=
  if field.length ≤ 24 ∧ field.all (fun b => decide (0x20 ≤ b.toNat ∧ b.toNat ≤ 0x7E)) then some field else none

/-- Field 6, the reference serial: empty for mode NEW, a serial for the other modes. -/
def referenceOf (mode : StoryMode) (field : List Byte) : Option (Option Nat) :=
  match mode with
  | .new => if field = [] then some none else none
  | .writeThru => (numberOf 4 field).map some
  | .kill => (numberOf 4 field).map some

/-- Field 7, the embargo: empty, or four digits HHMM. -/
def embargoOf (field : List Byte) : Option (Option Nat) :=
  if field = [] then some none
  else if field.length = 4 then
    match numberFrom 0 field with
    | none => none
    | some n => if n / 100 ≤ 23 ∧ n % 100 ≤ 59 then some (some (n / 100 * 60 + n % 100)) else none
  else none

/-- The recorded fields of a lead (Table 3-4). -/
structure LeadFields where
  serial : Nat
  cls : StoryClass
  selector : Selector
  slug : List Byte
  mode : StoryMode
  reference : Option Nat
  embargo : Option Nat
  deriving DecidableEq, Repr

/-- The fields of a lead are checked in order; the first that breaks its form gives the failure reason (R43). -/
def checkFields (f1 f2 f3 f4 f5 f6 f7 : List Byte) : Except AbandonReason LeadFields :=
  match numberOf 4 f1 with
  | none => .error .badSerial
  | some serial =>
  match classOf f2 with
  | none => .error .badClass
  | some cls =>
  match selectorOf f3 with
  | none => .error .badDesk
  | some selector =>
  match slugOf f4 with
  | none => .error .badSlug
  | some slug =>
  match modeOf f5 with
  | none => .error .badMode
  | some mode =>
  match referenceOf mode f6 with
  | none => .error .badReference
  | some reference =>
  match embargoOf f7 with
  | none => .error .badEmbargo
  | some embargo => .ok ⟨serial, cls, selector, slug, mode, reference, embargo⟩

/-- The check of a lead accumulator: exactly seven fields, each in its form (R43). -/
def checkLead (lead : List Byte) : Except AbandonReason LeadFields :=
  match splitAtByte houseFs lead with
  | [f1, f2, f3, f4, f5, f6, f7] => checkFields f1 f2 f3 f4 f5 f6 f7
  | _ => .error .fieldCount

end Sys2Proof.Machine
end

