-- ==== Sys2Proof/Machine/Intake.lean ====
section
/-!
DEFINITION. The intake parser (Chapter 3): translation (R36), taking a window write (R38, R39), the parse states (R40 to
R45), protected writes (R49), the settlement of holds at expiry (R50, R51) and the window commands (R53 to R55).
-/

namespace Sys2Proof.Machine

/-! ### Translation (R36) -/

/-- A written byte through a window's translation page, or as it is when there is none. -/
def State.translateByte (s : State) (w : WindowId) (b : Byte) : Byte :=
  match s.windowPage w with
  | none => b
  | some p => s.codePage p b

/-- A beat with its enabled bytes translated; the other bytes stay as the host gave them. -/
def State.translateBeat (s : State) (w : WindowId) (b : Beat) : Beat :=
  { b with data := beatOf ((List.range 8).map fun k =>
      if b.enables.getLsbD k then s.translateByte w (beatByte b.data k) else beatByte b.data k) }

/-! ### The parse states -/

/-- The parse state of a window changes. -/
def State.setParse (s : State) (w : WindowId) (p : ParseState) : State := s.onWindow w fun k => { k with parse := p }

/-- A START byte opens a story in a window, when the table has an entry to give: it is allocated, joins the window story
list at its tail, and the parser enters LEAD with an empty accumulator (R41). -/
def State.openAt (s : State) (w : WindowId) (a : Addr) : Option State :=
  match s.entryToGive with
  | none => none
  | some h =>
    some ((s.allocate h w a).onWindow w fun k =>
      { k with stories := k.stories ++ [h], parse := .lead, lead := [], textCount := 0, extents := [] })

/-- A START byte: in LEAD or TEXT it first abandons the story that is OPEN (R41, R42, R45). -/
def State.startByte (s : State) (w : WindowId) (a : Addr) : Option State :=
  match (s.window w).parse with
  | .hunt => s.openAt w a
  | .skip => s.openAt w a
  | .lead => (s.abandonOpen w .startInLead).openAt w a
  | .text => (s.abandonOpen w .startInText).openAt w a

/-- The recorded fields of a lead are stored in the story's record (R44). -/
def Story.record (r : Story) (f : LeadFields) : Story :=
  { r with serial := f.serial, cls := f.cls, selector := f.selector, slug := f.slug, mode := f.mode,
           refSerial := f.reference, embargo := f.embargo }

/-- The TEXT byte ends the lead: a lead that passes records its fields and TEXT begins after it; one that fails abandons
the story and the parser skips (R43, R44). That the accumulator then stands as it is through TEXT is log entry 40. -/
def State.endLead (s : State) (w : WindowId) (a : Addr) : State :=
  match checkLead (s.window w).lead with
  | .error reason => (s.abandonOpen w reason).setParse w .skip
  | .ok f =>
    let start := s.nextInWindow w a
    let s := match s.openStory w with
      | none => s
      | some h => s.onStory h fun r => r.record f
    s.onWindow w fun k => { k with parse := .text, textCount := 0, extents := [⟨start, 0⟩] }

/-- A byte of LEAD other than START (R42). -/
def State.leadByte (s : State) (w : WindowId) (a : Addr) (b : Byte) : State :=
  if b = houseText then s.endLead w a
  else if b = houseEnd then (s.abandonOpen w .endInLead).setParse w .hunt
  else if 96 ≤ (s.window w).lead.length then (s.abandonOpen w .leadTooLong).setParse w .hunt
  else s.onWindow w fun k => { k with lead := k.lead ++ [b] }

/-- The extents of a text with a byte more, at an address: the last extent grows, and a byte past the window's end opens
the second one (R45). -/
def growExtents (a : Addr) : List Extent → List Extent
  | [] => [⟨a, 1⟩]
  | [e] => if a = e.start + BitVec.ofNat 28 e.length then [⟨e.start, e.length + 1⟩] else [e, ⟨a, 1⟩]
  | e :: f :: rest => e :: growExtents a (f :: rest)

/-- The most text bytes of a story (R45). -/
def textLimit : Nat := 65535

/-- The END byte completes the OPEN story of a window, and the parser hunts (R45, R64). That what the window gathered for
the story is emptied here is log entries 29 (text count and extents) and 40 (lead accumulator). -/
def State.endText (s : State) (w : WindowId) : State :=
  let k := s.window w
  let s := match s.openStory w with
    | none => s
    | some h => s.completeStory h k.textCount k.extents
  (s.dropGathered w).setParse w .hunt

/-- A byte of TEXT other than START (R45). -/
def State.textByte (s : State) (w : WindowId) (a : Addr) (b : Byte) : State :=
  if b = houseEnd then s.endText w
  else if textLimit ≤ (s.window w).textCount then (s.abandonOpen w .textTooLong).setParse w .skip
  else s.onWindow w fun k => { k with textCount := k.textCount + 1, extents := growExtents a k.extents }

/-- One translated byte, read in the parse state that stands (R40 to R45); none for a START that finds no entry. -/
def State.parseByte (s : State) (w : WindowId) (a : Addr) (b : Byte) : Option State :=
  if b = houseStart then s.startByte w a
  else
    match (s.window w).parse with
    | .hunt => some s
    | .skip => if b = houseEnd then some (s.setParse w .hunt) else some s
    | .lead => some (s.leadByte w a b)
    | .text => some (s.textByte w a b)

/-- The bytes of a write, one by one in address order. A START that finds the table without an entry, as it stands after
the bytes before it, gives its address (R38 steps 4 and 5). -/
def State.parseBytes (w : WindowId) : List (Addr × Byte) → State → Except Addr State
  | [], s => .ok s
  | (a, b) :: rest, s =>
    match s.parseByte w a b with
    | none => .error a
    | some s => State.parseBytes w rest s

/-! ### Taking a window write (R38, R39) -/

/-- What the parser returns for a window write: forwarded with translated beats, or held (R7). -/
inductive IntakeResult where
  | forwarded (beats : List Beat) (s : State)
  | held (cause : HoldCause)
  deriving DecidableEq, Repr

/-- The intake position moves past a write. -/
def State.moveIntake (s : State) (w : WindowId) (a : Addr) : State := s.onWindow w fun k => { k with intake := a }

/-- A write out of sequence is not parsed: an OPEN story being read is abandoned, the parser hunts, and the intake
position moves past the write (R39). -/
def State.outOfSequence (s : State) (w : WindowId) (after : Addr) : State :=
  let s := match (s.window w).parse with
    | .lead => s.abandonOpen w .sequence
    | .text => s.abandonOpen w .sequence
    | .hunt => s
    | .skip => s
  (s.setParse w .hunt).moveIntake w after

/-- A window write is taken by its parser (R38, R39). -/
def State.intakeWrite (s : State) (w : WindowId) (a : Addr) (beats : List Beat) : IntakeResult :=
  let beats := beats.map (s.translateBeat w)
  let bytes := enabledBytes a beats
  if s.noRoom w bytes then .held (.ringFull w)
  else if s.inSequence w bytes then
    match State.parseBytes w bytes s with
    | .error start => .held (.tableFull w start)
    | .ok t => .forwarded beats (t.moveIntake w (s.afterLast w bytes))
  else .forwarded beats (s.outOfSequence w (s.afterLast w bytes))

/-! ### Protected writes and expiries -/

/-- A write absorbed at step 2 of R4 sets the protect latch and is reported, or raises the absorbed count (R49). -/
def State.protectWrite (s : State) (w : WindowId) (a : Addr) : State :=
  match (s.window w).protect with
  | none =>
    (s.onWindow w fun k => { k with protect := some a }).reportPlain .protectedWrite (byteOf w.val) (addrBytes a)
  | some _ => s.onWindow w fun k => { k with absorbed := raise255 k.absorbed }

/-- A RING_FULL hold expires: an OPEN story is abandoned with WINDOW_FULL, the parser hunts, and WINDOW_FULL is reported
with the address of the write's first enabled byte and the room (R50). -/
def State.expireRing (s : State) (w : WindowId) (bytes : List (Addr × Byte)) : State :=
  let s := (s.abandonOpen w .windowFull).setParse w .hunt
  s.reportPlain .windowFull (byteOf w.val)
    (addrBytes ((bytes.head?.map (·.1)).getD 0) ++ leBytes 3 (s.room w))

/-- A TABLE_FULL hold expires: an OPEN story is abandoned with TABLE_FULL, the intake position moves past the write, the
parser skips, and STORY_REFUSED is reported with the address of the START (R51). The START is the one that found no entry
when the hold began, though a KILL of a SPENT story or a commit of the translation page during the hold could give another
one at expiry: the model's choice, log entry 39. -/
def State.expireTable (s : State) (w : WindowId) (start : Addr) (bytes : List (Addr × Byte)) : State :=
  let after := s.afterLast w bytes
  (((s.abandonOpen w .tableFull).moveIntake w after).setParse w .skip).reportPlain .storyRefused (byteOf w.val)
    (addrBytes start)

/-! ### Window commands -/

/-- The address at a restart offset of a window. -/
def State.restartAddr (s : State) (w : WindowId) (offset : Nat) : Addr := BitVec.ofNat 28 (s.windowBase w + offset)

/-- Whether ENABLE WINDOW is refused with WRONG_STATE: not set up (R27), ENABLED, an offset that is no multiple of 8, or
a restart address inside the held span (R53). -/
def State.enableRefused (s : State) (w : WindowId) (offset : Nat) : Bool :=
  !(s.window w).setUp || (s.window w).enabled || decide (offset % 8 ≠ 0) || s.inHeldSpan w (s.restartAddr w offset)

/-- ENABLE WINDOW (R53). -/
def State.enableWindow (s : State) (w : WindowId) (offset : Nat) : State :=
  let a := s.restartAddr w offset
  (s.onWindow w fun k =>
    { k with enabled := true, intake := a, parse := .hunt, lead := [], textCount := 0, extents := [] }).testRooms

/-- DISABLE WINDOW (R54): a hold of a write to the window clears (R50, R51). -/
def State.disableWindow (s : State) (w : WindowId) : State :=
  ((((s.abandonOpen w .windowDisabled).onWindow w fun k => { k with parse := .hunt, enabled := false }).clearWindowHold
    w)).testRooms

/-- CLEAR WINDOW (R55). -/
def State.clearWindow (s : State) (w : WindowId) : State :=
  s.onWindow w fun k => { k with protect := none, absorbed := 0 }

end Sys2Proof.Machine
end

