-- ==== Sys2Proof/Machine/Framer.lean ====
section
/-!
DEFINITION. The line code (R142), the words a trunk offers (R172, R174) and the trunk framer (Chapter 8): frames (R146 to
R148), slot service (R149) with item ends (R117) and underruns (R126), and the return to mark (R144).
-/

namespace Sys2Proof.Machine

/-! ### The line code (Table 8-2) -/

/-- The patterns of indices 0 to 15, unit 1 on the left. -/
def patternsLow : List Pattern :=
  [0b0001111, 0b0010111, 0b0011011, 0b0011101, 0b0011110, 0b0100111, 0b0101011, 0b0101101,
   0b0101110, 0b0110011, 0b0110101, 0b0110110, 0b0111001, 0b0111010, 0b0111100, 0b1000111]

/-- The patterns of indices 16 to 34. -/
def patternsHigh : List Pattern :=
  [0b1001011, 0b1001101, 0b1001110, 0b1010011, 0b1010101, 0b1010110, 0b1011001, 0b1011010,
   0b1011100, 0b1100011, 0b1100101, 0b1100110, 0b1101001, 0b1101010, 0b1101100, 0b1110001,
   0b1110010, 0b1110100, 0b1111000]

/-- The 35 valid patterns by pattern index (Table 8-2). -/
def patterns : List Pattern := patternsLow ++ patternsHigh

/-- FRAME, index 32. -/
def frameSymbol : Pattern := 0b1110010
/-- IDLE, index 33. -/
def idleSymbol : Pattern := 0b1110100
/-- HALT, index 34. -/
def haltSymbol : Pattern := 0b1111000

/-- The pattern whose index equals a five-unit value (R142). -/
def codePattern (c : FiveUnit) : Pattern := (patterns[c.toNat]?).getD idleSymbol

/-- The index of a valid pattern; none for a code error (R142, R166). -/
def patternIndex (p : Pattern) : Option Nat := patterns.findIdx? (fun x => decide (x = p))

/-! ### Bring-up words (R172, R174) -/

/-- A bring-up word from its kind, ack and more bits and its content, bits 15 to 0. -/
def makeWord (kind : Nat) (ack more : Bool) (content : Nat) : BringUpWord :=
  BitVec.ofNat 20 (kind * 2 ^ 18 + bitOf ack * 2 ^ 17 + bitOf more * 2 ^ 16 + content)

/-- The part's BASE word: N, rate class and own station (Table 10-2). -/
def State.baseWord (s : State) (t : TrunkId) (ack : Bool) : BringUpWord :=
  makeWord 1 ack (s.ownMore t) (s.slotCount t * 2 ^ 12 + s.rateClass t * 2 ^ 10 + s.ownStation t * 2 ^ 5)

/-- The part's PAGE word for a slot: the slot number and its desk (Table 10-2). -/
def State.pageWordFor (s : State) (t : TrunkId) (slot : Nat) (ack : Bool) : BringUpWord :=
  makeWord 2 ack false (slot * 2 ^ 12 + s.slotNumber t slot * 2 ^ 7)

/-- The word a trunk offers in a bring-up state (Table 10-3). In DOWN and UP none is offered: no bring-up frame begins
there. -/
def State.offeredWord (s : State) (t : TrunkId) : BringUpWord :=
  match (s.trunk t).bringUp.state with
  | .search => s.baseWord t false
  | .broken => s.baseWord t false
  | .confirm => s.baseWord t true
  | .map =>
    match (s.trunk t).bringUp.page with
    | some p => s.pageWordFor t p.index p.seen
    | none => s.pageWordFor t 1 false
  | .settle => makeWord 0 true false 0
  | .down => 0
  | .up => 0

/-- Word symbol 3 to 6 of a bring-up frame carries five bits of the word, most significant first (R147). -/
def wordSymbol (w : BringUpWord) (symbol : Nat) : FiveUnit := w.extractLsb' (5 * (6 - symbol)) 5

/-- The pattern of symbol 1 to 6 of a bring-up frame (R147). -/
def bringUpPattern (w : BringUpWord) (symbol : Nat) : Pattern :=
  if symbol ≤ 2 then frameSymbol else codePattern (wordSymbol w symbol)

/-! ### Frames -/

/-- The last symbol of a frame: 6, or N + 1 (R147, R148). -/
def FrameKind.length (k : FrameKind) (n : Nat) : Nat :=
  match k with
  | .bringUp _ => 6
  | .data => n + 1

/-- The frame that begins at a frame boundary: of kind DATA if the trunk is UP, otherwise a bring-up frame with the word
then offered (R146, R147). -/
def State.newFrame (s : State) (t : TrunkId) : Framing :=
  { kind := if (s.trunk t).bringUp.state = .up then .data else .bringUp (s.offeredWord t)
    symbol := 1
    unit := 1
    pattern := frameSymbol
    rate := s.rateClass t
    timer := 0
    stopping := false }

/-- A trunk's transmitter begins a frame at its first symbol. -/
def State.beginFrame (s : State) (t : TrunkId) : State :=
  let f := s.newFrame t
  s.onTrunk t fun k => { k with transmitter := some f }

/-- The transmitter of a trunk that has left DOWN becomes FRAMING if it was in MARK (R145). -/
def State.startFraming (s : State) (t : TrunkId) : State :=
  match (s.trunk t).transmitter with
  | none => s.beginFrame t
  | some _ => s

/-- The transmitter of a trunk taken to DOWN completes its symbol in progress (R144). -/
def State.stopFraming (s : State) (t : TrunkId) : State :=
  s.onTrunk t fun k => { k with transmitter := k.transmitter.map fun f => { f with stopping := true } }

/-- Whether a frame boundary of a trunk has been reached: it is framing, not completing its last symbol, and in its
frame's last symbol. The inner symbols of a bring-up frame are no events of the table: a boundary implies them (log entry
6). -/
def State.atBoundary (s : State) (t : TrunkId) : Bool :=
  match (s.trunk t).transmitter with
  | none => false
  | some f =>
    !f.stopping &&
      match f.kind with
      | .bringUp _ => true
      | .data => decide (f.symbol = s.slotCount t + 1)

/-- FRAME_START on a trunk out of DOWN at a frame boundary (R146). -/
def State.frameStart (s : State) (t : TrunkId) : State :=
  if s.atBoundary t ∧ (s.trunk t).bringUp.state ≠ .down then s.beginFrame t else s

/-- The unit boundary at which a stopping transmitter has completed its last symbol: MARK, or, when the trunk has left
DOWN again, a new frame at once (R144). -/
def State.enterMark (s : State) (t : TrunkId) : State :=
  match (s.trunk t).transmitter with
  | none => s
  | some f =>
    if f.stopping then
      if (s.trunk t).bringUp.state = .down then s.onTrunk t fun k => { k with transmitter := none }
      else s.beginFrame t
    else s

/-! ### Slot service (R149) -/

/-- The end of a desk's current item by the taking of its tagged code: DONE for a STORY item in TRAILER (R117). -/
def State.endByTag (s : State) (d : DeskId) : State :=
  match (s.desk d).context with
  | none => s
  | some c =>
    let s := if c.kind = .story ∧ c.segment = .trailer then s.setMark c.handle d .done else s
    (s.endItem d c).settleStory c.handle

/-- An underrun of a desk with a current item: the count rises, and the item's first one is reported (R126). -/
def State.underrun (s : State) (d : DeskId) (c : SendContext) : State :=
  let s := s.onDesk d fun k => { k with underruns := raise255 k.underruns }
  if c.underrunLatch then s
  else
    (s.putContext d { c with underrunLatch := true }).reportStory .underrun (deskSubject d) c.handle
      [byteOf c.segment.code, byteOf (s.desk d).underruns]

/-- What a slot of a desk carries at its start, and its effect on the desk, by the lines of Table 8-4 after the spare slot
and the trunk out of UP. -/
def State.serveDesk (s : State) (d : DeskId) : Pattern × State :=
  let k := s.desk d
  if k.line || k.farStop then (idleSymbol, s)
  else
    match k.buffer with
    | x :: rest =>
      let s := s.onDesk d fun k => { k with buffer := rest }
      (codePattern x.code, if x.endTag then s.endByTag d else s)
    | [] =>
      match k.context with
      | some c => (idleSymbol, s.underrun d c)
      | none => (idleSymbol, s)

/-- What slot `k` of a data frame of a trunk carries, and its effect (Table 8-4). -/
def State.serveSlot (s : State) (t : TrunkId) (k : Nat) : Pattern × State :=
  match s.slotDesk t k with
  | none => (idleSymbol, s)
  | some d => if (s.trunk t).bringUp.state = .up then s.serveDesk d else (idleSymbol, s)

/-- The desk whose item the next slot start may end, for the tests that follow. -/
def State.flagAfterSlot (s : State) (t : TrunkId) (k : Nat) : State :=
  match s.slotDesk t k with
  | none => s
  | some d => s.testFlag d

/-- SLOT_START on a trunk: the next slot of the data frame in progress (R148, R149). -/
def State.slotStart (s : State) (t : TrunkId) : State :=
  match (s.trunk t).transmitter with
  | none => s
  | some f =>
    if f.kind = .data ∧ f.stopping = false ∧ f.symbol ≤ s.slotCount t then
      let served := s.serveSlot t f.symbol
      let g : Framing := { f with symbol := f.symbol + 1, unit := 1, timer := 0, pattern := served.1 }
      let u := served.2.onTrunk t fun k => { k with transmitter := some g }
      (u.flagAfterSlot t f.symbol).testRooms
    else s

/-! ### The TXD pin -/

/-- The level of a trunk's TXD pin: mark in MARK, otherwise the unit in progress of the pattern being sent (R142,
R144). -/
def State.txd (s : State) (t : TrunkId) : Level :=
  match (s.trunk t).transmitter with
  | none => .mark
  | some f => if f.pattern.getLsbD (7 - f.unit) then .mark else .space

end Sys2Proof.Machine
end

