-- ==== Sys2Proof/Machine/BringUp.lean ====
section
/-!
DEFINITION. The bring-up controller (Chapter 10) and the receiver's following of the trunk state (R158): entering and
leaving each bring-up state, the desks of a trunk (R186), received words (R173, R176 to R180), and the timers (R180, R184).
-/

namespace Sys2Proof.Machine

/-! ### Trunk states -/

/-- The receiver without lock, frame reference, miss count and switch-window count, in an alignment state (R158). That an
entry to SEARCH clears the miss count and the switch-window count too, which R158 lists for DOWN and BROKEN, is the model's
choice (log entry 43). -/
def Receiver.restart (r : Receiver) (a : Alignment) : Receiver :=
  { r with alignment := a, measurement := none, lock := none, ref := none, missCount := 0, switchWindow := 0 }

/-- The desks of a trunk that leaves UP: LINE is added and FAR_STOP removed, in slot order (R169, R186). -/
def State.desksLoseLine (s : State) (t : TrunkId) : State :=
  (s.trunkDesks t).foldl (fun s d => s.onDesk d fun k => { k with line := true, farStop := false }) s

/-- The desks of a trunk that enters UP: LINE is removed from those that hold it, and their items restored (R186). -/
def State.desksRegainLine (s : State) (t : TrunkId) : State :=
  (s.trunkDesks t).foldl (fun s d => s.lineReturns d) s

/-- The bring-up limit timer started from zero; with a limit of 0 it never runs (R184). -/
def State.freshLimit (s : State) (t : TrunkId) : Option Nat := if s.bringUpLimit t = 0 then none else some 0

/-- What follows from leaving UP for SEARCH or BROKEN: the bring-up limit timer starts and the desks lose LINE (R181,
R182, R184, R186). -/
def State.afterUp (s : State) (t : TrunkId) : State :=
  let limit := s.freshLimit t
  (s.onBringUp t fun b => { b with limitTimer := limit }).desksLoseLine t

/-- A trunk enters a state out of UP, with link timer, page and received word cleared, and its receiver in an alignment
state (R158, R173, R182). -/
def State.moveTrunk (s : State) (t : TrunkId) (st : TrunkState) (a : Alignment) : State :=
  (s.onBringUp t fun b => { b with state := st, received := none, page := none, linkTimer := none }).onReceiver t
    fun r => r.restart a

/-- Whether a trunk is UP. -/
def State.isUp (s : State) (t : TrunkId) : Bool := decide ((s.trunk t).bringUp.state = .up)

/-- A trunk enters BROKEN: the receiver becomes OFF (R158, R182). -/
def State.enterBroken (s : State) (t : TrunkId) : State :=
  if s.isUp t then (s.moveTrunk t .broken .off).afterUp t else s.moveTrunk t .broken .off

/-- A break start handed over: BROKEN from every state but DOWN and BROKEN (R182). -/
def State.handBreakStart (s : State) (t : TrunkId) : State :=
  match (s.trunk t).bringUp.state with
  | .down => s
  | .broken => s
  | .search => s.enterBroken t
  | .confirm => s.enterBroken t
  | .map => s.enterBroken t
  | .settle => s.enterBroken t
  | .up => s.enterBroken t

/-- A trunk enters SEARCH: the receiver measures afresh with its mismatch latch clear, and a line already in break takes
the trunk on to BROKEN (R158). -/
def State.enterSearch (s : State) (t : TrunkId) : State :=
  let u := s.moveTrunk t .search .measuring
  let u := u.onReceiver t fun r => { r with mismatch := false }
  let u := if s.isUp t then u.afterUp t else u
  if (s.trunk t).receiver.inBreak then u.handBreakStart t else u

/-- TRUNK_LOST with its reason and the switch-window count as it stands, and the trunk enters SEARCH (R164, R165, R181; log
entries 18 and 44). -/
def State.loseTrunk (s : State) (t : TrunkId) (reason : Nat) : State :=
  (s.reportPlain .trunkLost (byteOf t.val) [byteOf reason, byteOf (s.trunk t).receiver.switchWindow]).enterSearch t

/-- The far station byte of a report or image, FFh for none. -/
def BringUp.stationByte (b : BringUp) : Byte :=
  match b.farStation with
  | some n => byteOf n
  | none => noneByte

/-- A trunk enters UP: both timers stop, TRUNK_UP is reported, its desks regain LINE, and a FRAMED receiver goes to DATA;
any other is an ALIGNMENT loss at once (R158, R180, R181, R186). The switch-window count is set to 8 only on the way to DATA,
so that the loss carries the count as it stood: the model's choice, log entry 44. -/
def State.enterUp (s : State) (t : TrunkId) : State :=
  let s := s.onBringUp t fun b => { b with state := .up, linkTimer := none, limitTimer := none }
  let s := s.reportPlain .trunkUp (byteOf t.val)
    [(s.trunk t).bringUp.stationByte, byteOf (s.slotCount t), byteOf (s.rateClass t)]
  let s := s.desksRegainLine t
  if (s.trunk t).receiver.alignment = .framed then
    s.onReceiver t fun r => { r with alignment := .data, switchWindow := 8 }
  else s.loseTrunk t 1

/-- A trunk enters DOWN: timers, words, counts, far station and page are cleared, the receiver becomes OFF and the framer
completes its symbol (R183, R187). -/
def State.enterDown (s : State) (t : TrunkId) : State :=
  ((s.onBringUp t fun _ => { }).onReceiver t fun r => r.restart .off).stopFraming t

/-! ### Commands -/

/-- Whether TRUNK UP is refused with WRONG_STATE: not DOWN, or slot count 0 (R28, R175). -/
def State.trunkUpRefused (s : State) (t : TrunkId) : Bool :=
  decide ((s.trunk t).bringUp.state ≠ .down) || decide (s.slotCount t = 0)

/-- TRUNK UP (R175): SEARCH, the limit timer, the first bring-up frame with the SEARCH word, and the measurement; a line
in break takes the trunk on to BROKEN. -/
def State.trunkUp (s : State) (t : TrunkId) : State :=
  let limit := s.freshLimit t
  let s := s.onBringUp t fun b => { b with state := .search, received := none, limitTimer := limit }
  ((s.startFraming t).enterSearch t)

/-- TRUNK DOWN (R183). -/
def State.trunkDown (s : State) (t : TrunkId) : State :=
  if s.isUp t then ((s.enterDown t).desksLoseLine t) else s.enterDown t

/-- CLEAR TRUNK ERRORS (R167). -/
def State.clearTrunkErrors (s : State) (t : TrunkId) : State :=
  s.onReceiver t fun r => { r with capture := none, errorCount := 0 }

/-! ### Received words (R172, R173) -/

def BringUpWord.kindOf (w : BringUpWord) : Nat := w.toNat / 2 ^ 18
def BringUpWord.ackOf (w : BringUpWord) : Bool := w.getLsbD 17
def BringUpWord.moreOf (w : BringUpWord) : Bool := w.getLsbD 16
/-- Bits 15 to 12: the slot count of a BASE word, the slot number of a PAGE word. -/
def BringUpWord.slotOf (w : BringUpWord) : Nat := w.toNat / 2 ^ 12 % 16
def BringUpWord.rateOf (w : BringUpWord) : Nat := w.toNat / 2 ^ 10 % 4
def BringUpWord.stationOf (w : BringUpWord) : Nat := w.toNat / 2 ^ 5 % 32
/-- The desk of a PAGE word, bits 11 to 7. -/
def BringUpWord.deskOf (w : BringUpWord) : Nat := w.toNat / 2 ^ 7 % 32

/-- A received word by its kind, or ignored (Table 10-2). -/
inductive WordKind where
  | base
  | page
  | null
  | ignored
  deriving DecidableEq, Repr

/-- The kind of a received word: ignored when the kind is 3 or a field its kind requires to be zero is not (R172). -/
def wordKind (w : BringUpWord) : WordKind :=
  match BringUpWord.kindOf w with
  | 0 => if w.toNat % 2 ^ 16 = 0 then .null else .ignored
  | 1 => if w.toNat % 2 ^ 5 = 0 then .base else .ignored
  | 2 => if w.toNat % 2 ^ 7 = 0 then .page else .ignored
  | _ => .ignored

/-- A word is counted: an equal one raises the repeat count to at most 3, any other begins at 1 (R173). -/
def countWord (r : Option Received) (w : BringUpWord) : Received :=
  match r with
  | some x => if x.word = w then { word := w, repeats := min 3 (x.repeats + 1) } else { word := w, repeats := 1 }
  | none => { word := w, repeats := 1 }

/-- Whether a word has just been repeated for the third time: its count became 3 in this event (R173). -/
def becameThree (before : Option Received) (w : BringUpWord) : Bool :=
  match before with
  | some x => decide (x.word = w ∧ x.repeats = 2)
  | none => false

/-- Whether a BASE word is compatible: slot count, rate class and more bit as the part's own (R176). -/
def State.compatible (s : State) (t : TrunkId) (w : BringUpWord) : Bool :=
  decide (BringUpWord.slotOf w = s.slotCount t) && decide (BringUpWord.rateOf w = s.rateClass t) &&
    decide (BringUpWord.moreOf w = s.ownMore t)

/-- TRUNK_MISMATCH (R176). -/
def State.reportMismatch (s : State) (t : TrunkId) (w : BringUpWord) : State :=
  s.reportPlain .trunkMismatch (byteOf t.val)
    [byteOf (BringUpWord.slotOf w), byteOf (BringUpWord.rateOf w), byteOf (bitOf (BringUpWord.moreOf w)),
     byteOf (BringUpWord.stationOf w), byteOf (s.slotCount t), byteOf (s.rateClass t), byteOf (bitOf (s.ownMore t))]

/-- MAP_MISMATCH at the page's slot, with cause 1 DESK or 2 SKIP; the trunk enters SEARCH (R178). -/
def State.mapMismatch (s : State) (t : TrunkId) (k : Nat) (w : BringUpWord) (cause : Nat) : State :=
  (s.reportPlain .mapMismatch (byteOf t.val)
    [byteOf k, byteOf (s.slotNumber t k), byteOf (BringUpWord.slotOf w), byteOf (BringUpWord.deskOf w),
     byteOf cause]).enterSearch t

/-- A trunk enters CONFIRM, with the far station of the word recorded (R176). -/
def State.enterConfirm (s : State) (t : TrunkId) (w : BringUpWord) : State :=
  s.onBringUp t fun b => { b with state := .confirm, farStation := some (BringUpWord.stationOf w) }

/-- A trunk enters MAP with page index 1, not seen (R177). -/
def State.enterMap (s : State) (t : TrunkId) : State :=
  s.onBringUp t fun b => { b with state := .map, page := some { index := 1, seen := false } }

/-- A trunk enters SETTLE: the link timer starts and the page is cleared (R179, R180). -/
def State.enterSettle (s : State) (t : TrunkId) : State :=
  s.onBringUp t fun b => { b with state := .settle, page := none, linkTimer := some 0 }

/-- A word is examined in SEARCH, with its repeat count and whether that just became 3 (R176). -/
def State.examineSearch (s : State) (t : TrunkId) (w : BringUpWord) (repeats : Nat) (fresh : Bool) : State :=
  match wordKind w with
  | .base =>
    if repeats = 3 then
      if s.compatible t w then s.enterConfirm t w else if fresh then s.reportMismatch t w else s
    else s
  | .page => s
  | .null => s
  | .ignored => s

/-- A word is examined in CONFIRM (R177). -/
def State.examineConfirm (s : State) (t : TrunkId) (w : BringUpWord) (repeats : Nat) (fresh : Bool) : State :=
  match wordKind w with
  | .base =>
    if repeats = 3 then
      if s.compatible t w then
        if BringUpWord.ackOf w then (if s.ownMore t then s.enterMap t else s.enterSettle t) else s
      else (if fresh then s.reportMismatch t w else s).enterSearch t
    else s
  | .page => if s.ownMore t then s.enterMap t else s
  | .null => if BringUpWord.ackOf w ∧ s.ownMore t = false then s.enterSettle t else s
  | .ignored => s

/-- The page is stepped: to the next slot, or, at the last, to SETTLE (R179). -/
def State.stepPage (s : State) (t : TrunkId) (k : Nat) : State :=
  if k < s.slotCount t then s.onBringUp t fun b => { b with page := some { index := k + 1, seen := false } }
  else s.enterSettle t

/-- A far PAGE word is examined in MAP at a page (R178, R179). -/
def State.examinePage (s : State) (t : TrunkId) (p : MapPage) (w : BringUpWord) (repeats : Nat) : State :=
  let k := p.index
  let slot := BringUpWord.slotOf w
  if slot = 0 ∨ k + 1 < slot ∨ s.slotCount t < slot then s.mapMismatch t k w 2
  else if slot < k then s
  else if slot = k then
    if p.seen then (if BringUpWord.ackOf w then s.stepPage t k else s)
    else if repeats = 3 then
      if BringUpWord.deskOf w ≠ s.slotNumber t k then s.mapMismatch t k w 1
      else if BringUpWord.ackOf w then s.stepPage t k
      else s.onBringUp t fun b => { b with page := some { index := k, seen := true } }
    else s
  else if p.seen then s.stepPage t k
  else s.mapMismatch t k w 2

/-- A word is examined in MAP (R178, R179). -/
def State.examineMap (s : State) (t : TrunkId) (w : BringUpWord) (repeats : Nat) : State :=
  match (s.trunk t).bringUp.page with
  | none => s
  | some p =>
    match wordKind w with
    | .page => s.examinePage t p w repeats
    | .base => if BringUpWord.ackOf w then s else s.enterSearch t
    | .null => if BringUpWord.ackOf w ∧ p.index = s.slotCount t ∧ p.seen then s.enterSettle t else s
    | .ignored => s

/-- A word is examined in SETTLE (R180). -/
def State.examineSettle (s : State) (t : TrunkId) (w : BringUpWord) : State :=
  match wordKind w with
  | .base => if BringUpWord.ackOf w then s else s.enterSearch t
  | .page => s
  | .null => s
  | .ignored => s

/-- A word handed over is counted and examined once, by the rule of the state that stands (R173). -/
def State.receiveWord (s : State) (t : TrunkId) (w : BringUpWord) : State :=
  if wordKind w = .ignored then s
  else
    let before := (s.trunk t).bringUp.received
    let r := countWord before w
    let fresh := becameThree before w
    let u := s.onBringUp t fun b => { b with received := some r }
    match (s.trunk t).bringUp.state with
    | .search => u.examineSearch t w r.repeats fresh
    | .confirm => u.examineConfirm t w r.repeats fresh
    | .map => u.examineMap t w r.repeats
    | .settle => u.examineSettle t w
    | .down => s
    | .up => s
    | .broken => s

/-! ### Timers -/

/-- The link timer expires in SETTLE: the trunk enters UP (R180). -/
def State.linkExpiry (s : State) (t : TrunkId) : State :=
  if (s.trunk t).bringUp.state = .settle ∧ (s.trunk t).bringUp.linkTimer.isSome then
    ((s.enterUp t).testFlags).testRooms
  else s

/-- The bring-up limit timer expires: TRUNK_STALLED, and it restarts from zero (R184). -/
def State.limitExpiry (s : State) (t : TrunkId) : State :=
  match (s.trunk t).bringUp.limitTimer with
  | none => s
  | some _ =>
    let b := (s.trunk t).bringUp
    (s.reportPlain .trunkStalled (byteOf t.val)
      [byteOf b.state.code, byteOf ((b.page.map MapPage.index).getD 0), b.stationByte]).onBringUp t
      fun b => { b with limitTimer := some 0 }

end Sys2Proof.Machine
end

