-- ==== Sys2Proof/Machine/Receiver.lean ====
section
/-!
DEFINITION. The trunk receiver (Chapter 9) from breaks upward: break start and end (R157), the unit measurement (R159),
alignment on bring-up frames (R160, R161), the frame tracker and the role of each symbol read (R162 to R165), code errors
(R166) and the far printers' flow symbols (R168).
-/

namespace Sys2Proof.Machine

/-! ### Breaks (R157) -/

/-- The filter and the run count at the 256th sample in a row at a level (R157). A sample taken by a period stands as it was
read, so a lone sample at the other level stays the last sample (R155). A step that a sender presents while they stand
otherwise leaves them at its level (log entry 24). -/
def Receiver.atRun (r : Receiver) (level : Level) : Receiver :=
  if r.accepted = level ∧ r.run = 256 then r else { r with run := 256, accepted := level, lastSample := level }

/-- The 256th consecutive SPACE sample while no break stands: BREAK, LINE_BREAK with the trunk state, and the break start
is handed over. -/
def State.breakStart (s : State) (t : TrunkId) : State :=
  if (s.trunk t).receiver.inBreak then s
  else
    let s := s.onReceiver t fun r => { r.atRun .space with inBreak := true }
    (s.reportPlain .lineBreak (byteOf t.val) [byteOf (s.trunk t).bringUp.state.code]).handBreakStart t

/-- The 256th consecutive MARK sample during a break: NONE, LINE_MARK with the trunk state, and the break end is handed
over, which takes BROKEN to SEARCH (R157, R182). -/
def State.breakEnd (s : State) (t : TrunkId) : State :=
  if (s.trunk t).receiver.inBreak then
    let s := s.onReceiver t fun r => { r.atRun .mark with inBreak := false }
    let s := s.reportPlain .lineMark (byteOf t.val) [byteOf (s.trunk t).bringUp.state.code]
    if (s.trunk t).bringUp.state = .broken then s.enterSearch t else s
  else s

/-! ### Measurement and alignment -/

/-- Whether a unit estimate fits: within 1/8 of the nominal 16 samples (R159). -/
def unitFits (estimate : Nat) : Bool := decide (14 ≤ estimate ∧ estimate ≤ 18)

/-- The 64th counted transition of a measurement, with its estimate (R159). -/
def State.measurementComplete (s : State) (t : TrunkId) (estimate : Nat) : State :=
  let r := (s.trunk t).receiver
  if r.alignment = .measuring then
    if unitFits estimate then
      s.onReceiver t fun r => { r with measured := estimate, alignment := .seeking, measurement := none }
    else
      let s := s.onReceiver t fun r =>
        { r with measured := estimate, mismatch := true, measurement := some { count := 0, shortest := 255 } }
      if r.mismatch then s
      else s.reportPlain .rateMismatch (byteOf t.val) [byteOf estimate, byteOf (s.rateClass t)]
  else s

/-- A bring-up frame reference of which the second FRAME symbol has just been read (R161). -/
def lockedRef : FrameRef :=
  { kind := .bringUp, offset := 1, accepted := true, slotsRead := false, afterBringUp := false, values := []
    withheld := false }

/-- Two symbols are compared with a pair of FRAME symbols: in SEEKING the last 14 units, in LOCKING the expected pair
(R160, R161). -/
def State.framePair (s : State) (t : TrunkId) (found : Bool) : State :=
  let r := (s.trunk t).receiver
  match r.alignment with
  | .seeking =>
    if found then
      s.onReceiver t fun r =>
        { r with alignment := .locking, lock := some { count := 1, offset := 1 }, unitCount := 0 }
    else s
  | .locking =>
    match found, r.lock with
    | true, some l =>
      if l.count < 2 then s.onReceiver t fun r => { r with lock := some { count := l.count + 1, offset := 1 } }
      else s.onReceiver t fun r =>
        { r with alignment := .framed, lock := none, ref := some lockedRef, missCount := 0 }
    | true, none => s
    | false, _ => s.onReceiver t fun r => { r with alignment := .seeking, lock := none }
  | .off => s
  | .measuring => s
  | .framed => s
  | .data => s

/-! ### The role of a symbol read (R162, R168) -/

/-- Whether both frame spacings are accepted: in FRAMED, and in DATA while the switch window is open (R162, R164). -/
def Receiver.bothSpacings (r : Receiver) : Bool :=
  decide (r.alignment = .framed) || (decide (r.alignment = .data) && decide (0 < r.switchWindow))

/-- The offsets after a reference at which the next frame may start (R162), with N the channel slot count. -/
def Receiver.expected (r : Receiver) (f : FrameRef) (n : Nat) : List Nat :=
  match f.kind with
  | .bringUp => [6]
  | .data => if r.bothSpacings ∧ n + 1 ≠ 6 then [min 6 (n + 1), max 6 (n + 1)] else [n + 1]
  | .pending => []

/-- What the next symbol is to the frame tracker. -/
inductive SymbolRole where
  /-- The symbol after an accepted FRAME: it settles the kind of the frame start. -/
  | settle
  /-- FRAME at a position at which a frame may start. -/
  | frameStart
  /-- The last such position, and not FRAME. -/
  | missing
  /-- A channel slot of a return frame whose start was accepted in DATA. -/
  | slot (k : Nat)
  /-- A word symbol of a bring-up frame, read in FRAMED. -/
  | word
  /-- Any other symbol: it is checked for a code error only. -/
  | other
  deriving DecidableEq, Repr

/-- The role of a symbol at an offset after the reference. -/
def Receiver.roleAt (r : Receiver) (f : FrameRef) (n o : Nat) (sym : Pattern) : SymbolRole :=
  let positions := r.expected f n
  if f.kind = .pending then .settle
  else if positions.contains o && decide (sym = frameSymbol) then .frameStart
  else if positions.getLast? = some o then .missing
  else if f.kind = .data ∧ f.slotsRead ∧ r.alignment = .data ∧ 1 ≤ o ∧ o ≤ n then .slot o
  else if f.kind = .bringUp ∧ f.accepted ∧ r.alignment = .framed ∧ 2 ≤ o ∧ o ≤ 5 then .word
  else .other

/-- The role of the next symbol of a trunk, when its receiver reads symbols with a frame reference. -/
def State.symbolRole (s : State) (t : TrunkId) (sym : Pattern) : Option SymbolRole :=
  let r := (s.trunk t).receiver
  match r.alignment, r.ref with
  | .framed, some f => some (r.roleAt f (s.slotCount t) (f.offset + 1) sym)
  | .data, some f => some (r.roleAt f (s.slotCount t) (f.offset + 1) sym)
  | _, _ => none

/-! ### Code errors (R166) -/

/-- The units of a symbol at mark. -/
def markCount (p : Pattern) : Nat := ((List.range 7).filter fun i => p.getLsbD i).length

/-- Whether a symbol breaks the four-of-seven rule. -/
def isCodeError (p : Pattern) : Bool := decide (markCount p ≠ 4)

/-- The slot recorded for a symbol: 1 to N for a channel slot of an accepted data frame, otherwise 0. -/
def slotOfSymbol (f : FrameRef) (n o : Nat) (sym : Pattern) : Nat :=
  if f.accepted ∧ (f.kind = .data ∨ (f.kind = .pending ∧ sym ≠ frameSymbol)) ∧ 1 ≤ o ∧ o ≤ n then o else 0

/-- A symbol read is checked: a code error raises the count, and the first one sets the flag, is captured and reported
(R166). -/
def State.checkSymbol (s : State) (t : TrunkId) (sym : Pattern) : State :=
  let r := (s.trunk t).receiver
  if isCodeError sym then
    let slot := match r.ref with
      | some f => slotOfSymbol f (s.slotCount t) (f.offset + 1) sym
      | none => 0
    let count := raise255 r.errorCount
    match r.capture with
    | some _ => s.onReceiver t fun r => { r with errorCount := count }
    | none =>
      (s.onReceiver t fun r => { r with errorCount := count, capture := some ⟨slot, sym⟩ }).reportPlain .codeError
        (byteOf t.val) [byteOf slot, byteOf sym.toNat, byteOf r.alignment.code, byteOf count]
  else s

/-! ### The frame tracker (R162 to R165) -/

/-- The frame reference of a trunk's receiver changes. -/
def State.setRef (s : State) (t : TrunkId) (f : FrameRef) : State := s.onReceiver t fun r => { r with ref := some f }

/-- A frame is settled, by the acceptance of its start or as missing: in DATA the switch-window count falls by one until
it is 0 (R164). -/
def State.settleFrame (s : State) (t : TrunkId) : State :=
  s.onReceiver t fun r =>
    if r.alignment = .data then { r with switchWindow := r.switchWindow - 1 } else r

/-- A frame start is accepted, its kind pending, and its frame is settled (R162, R164). -/
def State.acceptStart (s : State) (t : TrunkId) (f : FrameRef) : State :=
  (s.onReceiver t fun r =>
    { r with
      ref := some
        { kind := .pending, offset := 0, accepted := true, slotsRead := decide (r.alignment = .data),
          afterBringUp := f.accepted && decide (f.kind = .bringUp) && decide (f.offset + 1 = 6),
          values := [], withheld := false }
      missCount := 0 }).settleFrame t

/-- The desk of a return slot hears HALT or IDLE; any other symbol leaves its set (R168). -/
def State.flowSymbol (s : State) (t : TrunkId) (k : Nat) (sym : Pattern) : State :=
  match s.slotDesk t k with
  | none => s
  | some d =>
    if sym = haltSymbol then s.onDesk d fun x => { x with farStop := true }
    else if sym = idleSymbol then s.onDesk d fun x => { x with farStop := false }
    else s

/-- The symbol after a FRAME settles its kind: BRING-UP for a second FRAME, DATA otherwise, when it is slot 1 of a frame
accepted in DATA. In DATA a bring-up frame start 6 symbols after another, the switch window closed, is a far restart (R162,
R165, R168). -/
def State.settleStart (s : State) (t : TrunkId) (f : FrameRef) (sym : Pattern) : State :=
  let r := (s.trunk t).receiver
  let kind : RefKind := if sym = frameSymbol then .bringUp else .data
  let s := s.setRef t { f with kind := kind, offset := 1 }
  if r.alignment = .data then
    if sym = frameSymbol then
      if r.switchWindow = 0 ∧ f.afterBringUp then s.loseTrunk t 2 else s
    else if f.slotsRead ∧ 1 ≤ s.slotCount t then s.flowSymbol t 1 sym
    else s
  else s

/-- A missing frame: the miss count rises and the reference moves on by whole frames of its kind; a second miss in a row
is SEEKING again in FRAMED (R163) and a loss of alignment in DATA (R164). -/
def State.missFrame (s : State) (t : TrunkId) (f : FrameRef) : State :=
  let r := (s.trunk t).receiver
  let spacing := match f.kind with
    | .bringUp => 6
    | .data => s.slotCount t + 1
    | .pending => 6
  let s := (s.onReceiver t fun r => { r with
      ref := some { kind := f.kind, offset := (f.offset + 1) % spacing, accepted := false, slotsRead := false,
                    afterBringUp := false, values := [], withheld := false }
      missCount := 1 }).settleFrame t
  if r.missCount = 0 then s
  else if r.alignment = .data then s.loseTrunk t 1
  else s.onReceiver t fun r => { r with alignment := .seeking, ref := none, missCount := 0 }

/-- A word symbol of a bring-up frame: FRAME, IDLE, HALT and code errors withhold the word (R162). -/
def FrameRef.addWordSymbol (f : FrameRef) (sym : Pattern) : FrameRef :=
  match patternIndex sym with
  | some i =>
    if i < 32 then { f with values := f.values ++ [BitVec.ofNat 5 i] } else { f with withheld := true }
  | none => { f with withheld := true }

/-- The word of four five-bit values, symbol 3 first (R147, R162). -/
def wordOfValues (values : List FiveUnit) : BringUpWord :=
  BitVec.ofNat 20 (values.foldl (fun n v => 32 * n + v.toNat) 0)

/-- The tracker reads a symbol in its role (R162 to R168). -/
def State.trackSymbol (s : State) (t : TrunkId) (f : FrameRef) (role : SymbolRole) (sym : Pattern) : State :=
  match role with
  | .settle => s.settleStart t f sym
  | .frameStart => s.acceptStart t f
  | .missing => s.missFrame t f
  | .slot k => (s.setRef t { f with offset := f.offset + 1 }).flowSymbol t k sym
  | .word => s.setRef t (({ f with offset := f.offset + 1 } : FrameRef).addWordSymbol sym)
  | .other => s.setRef t { f with offset := f.offset + 1 }

/-- A symbol is read: checked for a code error, then read in its role (R162, R166). A CODE_ERROR therefore stands before the
TRUNK_LOST of a second miss that the same symbol settles: the model's choice, log entry 45. -/
def State.readSymbol (s : State) (t : TrunkId) (role : SymbolRole) (sym : Pattern) : State :=
  match (s.trunk t).receiver.ref with
  | none => s
  | some f => (s.checkSymbol t sym).trackSymbol t f role sym

/-- Whether the step FAR_FRAME_START reads a symbol of this role: it accepts a frame start and settles its kind. -/
def SymbolRole.isFarStart : SymbolRole → Bool
  | .settle => true
  | .frameStart => true
  | .missing => false
  | .slot _ => false
  | .word => false
  | .other => false

/-- Whether the step SYMBOL_READ reads a symbol of this role. -/
def SymbolRole.isPlain : SymbolRole → Bool
  | .settle => false
  | .frameStart => false
  | .missing => false
  | .slot _ => false
  | .word => true
  | .other => true

/-- Whether the frame in progress was accepted in DATA, so that its channel slots are read (R162, R168). -/
def Receiver.readsSlots (r : Receiver) : Bool :=
  match r.ref with
  | some f => f.slotsRead
  | none => false

/-- Whether the step RETURN_SLOT_READ reads this symbol: a channel slot, among them slot 1, whose reading settles the
frame's kind (R168). -/
def State.isReturnSlot (s : State) (t : TrunkId) (role : SymbolRole) (sym : Pattern) : Bool :=
  match role with
  | .slot _ => true
  | .settle =>
    decide ((s.trunk t).receiver.alignment = .data) && (s.trunk t).receiver.readsSlots && decide (sym ≠ frameSymbol)
  | .frameStart => false
  | .missing => false
  | .word => false
  | .other => false

/-- A symbol is read when its role is one of a step's; otherwise it is no event of that step and the state stands (log
entry 5). -/
def State.readAs (s : State) (t : TrunkId) (sym : Pattern) (mine : SymbolRole → Bool) : State :=
  match s.symbolRole t sym with
  | none => s
  | some role => if mine role then s.readSymbol t role sym else s

/-- A word handed over by a FRAMED receiver (R162, R173); in every other alignment none is. -/
def State.wordReceived (s : State) (t : TrunkId) (w : BringUpWord) : State :=
  if (s.trunk t).receiver.alignment = .framed then s.receiveWord t w else s

end Sys2Proof.Machine
end

