-- ==== Sys2Proof/Machine/Images.lean ====
section
/-!
DEFINITION. The snapshot images (R193): the general image (Table 11-4), the story pages (Table 11-5) and the desk pages
(Table 11-6).
-/

namespace Sys2Proof.Machine

/-- The byte of an optional handle, FFh for none. -/
def handleByte (h : Option HandleId) : Byte := followOnByte h

/-- Bits as a byte, bit 0 first. -/
def bitsByte (bits : List Bool) : Byte := byteOf (bits.foldr (fun b n => bitOf b + 2 * n) 0)

/-- Entries of the completion queue owned by the host. -/
def State.upstreamEntries (s : State) : Nat := s.entries.countP fun e => decide (e.owner = .upstream)

/-- Own entries of the completion queue: FETCH, REPORT and SNAPSHOT together (R8). -/
def State.ownEntries (s : State) : Nat := s.entries.countP fun e => decide (e.owner ≠ .upstream)

/-- Whether an entry is a FETCH entry. -/
def Owner.isFetch : Owner → Bool
  | .fetch _ _ => true
  | .upstream => false
  | .report => false
  | .snapshot => false

/-- FETCH entries of the completion queue. -/
def State.fetchEntries (s : State) : Nat := s.entries.countP fun e => e.owner.isFetch

/-- Offsets 00h to 1Fh of the general image. -/
def State.generalPart (s : State) : List Byte :=
  leBytes 2 0x0418 ++ [1, byteOf (match s.mode with
    | .configure => 0
    | .run => 1)] ++ leBytes 2 s.clock.minute ++ [byteOf s.edgeSelect,
    bitsByte [s.writer.alert, s.writer.notice, s.writer.storeFault]] ++
  leBytes 2 s.writer.writeIndex ++ leBytes 2 s.writer.consumed ++
  [byteOf s.writer.missed, byteOf s.writer.queue.length, byteOf (deskNumber s.fetchPointer),
   byteOf ((s.hold.map fun h => h.cause.code).getD 0),
   byteOf s.upstreamEntries, byteOf s.ownEntries, byteOf s.fetchEntries, byteOf s.fifo.length,
   byteOf (s.stories.toList.countP fun r => decide (r.state ≠ .free)), byteOf s.completion.length,
   byteOf s.spentList.length] ++ List.replicate 9 0

/-- The 16 bytes of a window in the general image. With the protect latch clear the captured address is shown as 0 (log
entry 38). -/
def State.windowPart (s : State) (w : WindowId) : List Byte :=
  let k := s.window w
  [byteOf (bitOf k.enabled), byteOf (bitOf k.setUp), byteOf k.parse.code, bitsByte [k.protect.isSome, k.reserveLow]] ++
    addrBytes k.intake ++ addrBytes (k.protect.getD 0) ++
    [byteOf k.absorbed, byteOf k.stories.length, handleByte k.stories.head?, handleByte (s.openStory w)]

/-- The transmitter byte of a trunk: 0 MARK, 1 bring-up frames, 2 data frames. -/
def transmitterByte : Option Framing → Byte
  | none => 0
  | some f =>
    match f.kind with
    | .bringUp _ => 1
    | .data => 2

/-- The 24 bytes of a trunk in the general image. Without a capture its slot and pattern, and without a received word the
repeat count, are shown as 0 (log entry 38). -/
def State.trunkPart (s : State) (t : TrunkId) : List Byte :=
  let k := s.trunk t
  let r := k.receiver
  [byteOf k.bringUp.state.code, k.bringUp.stationByte, byteOf ((k.bringUp.page.map MapPage.index).getD 0),
   transmitterByte k.transmitter, byteOf r.alignment.code, byteOf r.measured, byteOf (bitOf r.inBreak),
   bitsByte [r.capture.isSome, r.mismatch], byteOf ((r.capture.map Capture.slot).getD 0),
   byteOf ((r.capture.map fun c => c.pattern.toNat).getD 0), byteOf r.errorCount, byteOf r.switchWindow,
   byteOf ((k.bringUp.received.map Received.repeats).getD 0)] ++
  (match k.bringUp.received with
   | some x => leBytes 3 x.word.toNat
   | none => [0xFF, 0xFF, 0xFF]) ++ List.replicate 8 0

/-- The general image (kind 0). -/
def State.generalImage (s : State) : List Byte :=
  s.generalPart ++ allWindows.flatMap s.windowPart ++ allTrunks.flatMap s.trunkPart

/-- The 16 bytes of a story record in a story page. -/
def State.storyPart (s : State) (h : HandleId) : List Byte :=
  let r := s.story h
  [r.generation, byteOf (r.state.code + 8 * r.cls.code + 64 * r.mode.code), byteOf (r.window.val + 16 * r.agency.val),
   byteOf r.holders] ++ leBytes 2 r.serial ++ leBytes 2 r.embargoField ++ leBytes 2 r.textCount ++
    deskSetBytes (fun d => decide (r.marks[d] = .queued ∨ r.marks[d] = .active)) ++
    deskSetBytes (fun d => decide (r.marks[d] = .done))

/-- Staging block states: 0 EMPTY, 1 REQUESTED, 2 FULL. -/
def Staging.code : Staging → Nat
  | .empty => 0
  | .requested _ => 1
  | .full _ _ => 2

/-- Byte 4 of a desk: segment, item kind, and the notice kind when the segment is NOTICE; 0 without a current item (log
entry 38). -/
def contextByte : Option SendContext → Byte
  | none => 0
  | some c =>
    byteOf (c.segment.code + 4 * c.kind.code + 16 * (match c.segment with
      | .notice k _ _ => k.code
      | .header => 0
      | .text => 0
      | .trailer => 0))

/-- Byte 9 of a desk: resume point and saved cut notice of its saved context; 0 without one (log entry 38). -/
def savedByte : Option SavedContext → Byte
  | none => 0
  | some v => byteOf (v.resume.code + 16 * ((v.cutNotice.map NoticeKind.code).getD 0))

/-- The 16 bytes of a desk in a desk page. Without a current item the text cursor is shown as 0 (log entry 38). -/
def State.deskPart (s : State) (d : DeskId) : List Byte :=
  let k := s.desk d
  [bitsByte [k.isOpen, k.preempt, k.line, k.farStop, k.held, decide (k.shift = .figures)], byteOf k.queue.length,
   handleByte (k.queue.head?.map DeskEntry.handle), handleByte (k.context.map SendContext.handle),
   contextByte k.context] ++ leBytes 2 ((k.context.map SendContext.cursor).getD 0) ++
  [byteOf k.column, handleByte (k.saved.map SavedContext.handle), savedByte k.saved,
   handleByte (k.directNext.map FollowOn.handle), handleByte (k.savedFollowOn.map FollowOn.handle), k.epoch,
   byteOf k.underruns, byteOf (k.staging0.code + 4 * k.staging1.code), byteOf k.buffer.length]

/-- The image of a snapshot kind, 0 to 10 (R193). -/
def State.image (s : State) (kind : Nat) : List Byte :=
  match kind with
  | 0 => s.generalImage
  | 9 => (allDesks.take 16).flatMap s.deskPart
  | 10 => (allDesks.drop 16).flatMap s.deskPart ++ List.replicate 128 0
  | k => ((allHandles.drop (16 * (k - 1))).take 16).flatMap s.storyPart

end Sys2Proof.Machine
end

