-- ==== Sys2Proof/Machine/Writer.lean ====
section
/-!
DEFINITION. The report writer's own traffic (R190, R191, R193), the fetch engine's reads and returns (R133 to R136, R139)
and the downstream arbiter (R14 to R16).
-/

namespace Sys2Proof.Machine

/-! ### What the sources offer -/

/-- Whether the ring is full: the write index + 1 equals the consumed index, modulo its size (R190). -/
def State.ringFull (s : State) : Bool := decide ((s.writer.writeIndex + 1) % s.ringSize = s.writer.consumed)

/-- The snapshot write offered: a snapshot in progress with writes still to issue, and no write outstanding (R190). -/
def State.offersBlock (s : State) : Bool :=
  s.writer.outstanding.isNone &&
    match s.writer.snapshot with
    | some x => decide (x.issued < 8)
    | none => false

/-- The report write offered: no write outstanding, no snapshot write to issue, a record pending, and a ring that is not
full (R190). -/
def State.offersRecord (s : State) : Bool :=
  s.writer.outstanding.isNone && !s.offersBlock && !s.writer.queue.isEmpty && decide (s.ringCode ≠ 0) && !s.ringFull

/-- The most own entries, and the most UPSTREAM entries, of the completion queue (R8). -/
def queueShare : Nat := 8

/-- Whether the report writer's request is ready (R16). -/
def State.writerReady (s : State) : Bool :=
  (s.offersBlock || s.offersRecord) && decide (s.ownEntries < queueShare)

/-- The desk the fetch engine serves next: the first eligible one after the round-robin pointer, the pointer itself last
(R133). -/
def State.nextReader (s : State) : Option (DeskId × TextBlock) :=
  (List.range 24).findSome? fun i =>
    let d : DeskId := s.fetchPointer + Fin.ofNat 24 (i + 1)
    (s.eligibleRead d).map fun b => (d, b)

/-- Whether the fetch engine's request is ready: a desk is eligible, and the completion queue is within the own limit
and the fetch limit (R16, R134). -/
def State.fetchReady (s : State) : Bool :=
  s.nextReader.isSome && decide (s.ownEntries < queueShare) && decide (s.fetchEntries < s.fetchLimit)

/-- Whether an own request is ready. -/
def State.ownReady (s : State) : Bool := s.writerReady || s.fetchReady

/-! ### The arbiter -/

/-- Whether the upstream side is ready: a request presented, not in a hold, and fewer than 8 UPSTREAM entries (R3). -/
def State.upstreamReady (s : State) : Bool :=
  s.port.isSome && s.hold.isNone && decide (s.upstreamEntries < queueShare)

/-- Whether the arbiter's next grant is the upstream side's (R14). -/
def State.grantsUpstream (s : State) : Bool :=
  s.upstreamReady && (decide (s.ownWait < s.yieldCount) || !s.ownReady)

/-- Whether the arbiter's next grant is the report writer's (R14, R15). -/
def State.grantsWriter (s : State) : Bool :=
  !s.grantsUpstream && s.writerReady && (!s.fetchReady || decide (s.lastOwn ≠ .report))

/-- Whether the arbiter's next grant is the fetch engine's (R14, R15). -/
def State.grantsFetch (s : State) : Bool :=
  !s.grantsUpstream && s.fetchReady && (!s.writerReady || decide (s.lastOwn ≠ .fetch))

/-- An own request is issued: its entry joins the completion queue, the own-wait count returns to 0 and the last own
source is set (R14, R15). -/
def State.issueOwn (s : State) (owner : Owner) (access : Access) (r : BusRequest) (source : OwnSource) : State :=
  { s with
    entries := s.entries ++ [{ owner := owner, access := access, isLocal := false, result := none }]
    downBus := some r
    ownWait := 0
    lastOwn := source }

/-! ### Grants -/

/-- A text read is granted: EMPTY staging block 0, or else 1, becomes REQUESTED with the text block, and the pointer
moves to the desk served (R133). -/
def State.grantFetch (s : State) : State :=
  if s.grantsFetch then
    match s.nextReader with
    | none => s
    | some (d, b) =>
      let e := (s.desk d).epoch
      let s := s.onDesk d fun k =>
        if k.staging0.isEmpty then { k with staging0 := .requested b } else { k with staging1 := .requested b }
      { s.issueOwn (.fetch d e) .read (.read b.address 4) .fetch with fetchPointer := d }
  else s

/-- The address of a ring index (R190). -/
def State.ringAddr (s : State) (i : Nat) : Addr := BitVec.ofNat 28 (s.ringBase + 16 * i)

/-- A report write is granted: the queue head leaves with the missed count in its byte 8, and the missed count returns to
0 (R190). -/
def State.grantRecord (s : State) : State :=
  if s.grantsWriter ∧ s.offersRecord then
    match s.writer.queue with
    | [] => s
    | r :: rest =>
      let a := s.ringAddr s.writer.writeIndex
      let beats := bytesBeats 2 (r.bytes s.writer.missed)
      let s := s.onWriter fun w =>
        { w with queue := rest, missed := 0, outstanding := some { write := .record r.kind, abandoned := false } }
      s.issueOwn .report .write (.write a beats) .report
  else s

/-- The address of a block of the snapshot area, F00h to FFFh of the page (R193). -/
def State.snapshotAddr (s : State) (i : Nat) : Addr := BitVec.ofNat 28 (s.pageBase + 0xF00 + 32 * i)

/-- A snapshot write is granted: the next 32 bytes of the captured image (R193). -/
def State.grantBlock (s : State) : State :=
  if s.grantsWriter ∧ s.offersBlock then
    match s.writer.snapshot with
    | none => s
    | some x =>
      let a := s.snapshotAddr x.issued
      let beats := bytesBeats 4 (x.image.drop (32 * x.issued))
      let s := s.onWriter fun w =>
        { w with snapshot := some { x with issued := x.issued + 1 },
                 outstanding := some { write := .block, abandoned := false } }
      s.issueOwn .snapshot .write (.write a beats) .report
  else s

/-! ### Completions of own requests -/

/-- An ERROR on a report or snapshot write sets the store-fault flag and ALERT pending (R18, R190). -/
def State.noteStatus (s : State) (st : Status) : State :=
  match st with
  | .ok => s
  | .error => s.onWriter fun w => { w with storeFault := true, alert := true }

/-- A record counts as written whatever its status: the write index advances, wrapping, and its line is set (R190,
R192). -/
def State.recordWritten (s : State) (kind : ReportKind) (st : Status) : State :=
  let n := s.ringSize
  ((s.onWriter fun w => { w with outstanding := none, writeIndex := (w.writeIndex + 1) % n }).setLine
    kind).noteStatus st

/-- A snapshot write counts as written whatever its status; after the eighth the snapshot is over and SNAPSHOT_READY is
made (R193). -/
def State.blockWritten (s : State) (st : Status) : State :=
  let s := (s.onWriter fun w => { w with outstanding := none }).noteStatus st
  match s.writer.snapshot with
  | none => s
  | some x =>
    if x.issued = 8 then
      (s.onWriter fun w => { w with snapshot := none }).reportPlain .snapshotReady noneByte
        [byteOf x.kind, byteOf (bitOf s.writer.storeFault)]
    else s

/-- A REPORT or SNAPSHOT completion; an abandoned write only ceases to be outstanding (R190, R191, R193). -/
def State.writerReturn (s : State) (st : Status) : State :=
  match s.writer.outstanding with
  | none => s
  | some o =>
    if o.abandoned then s.onWriter fun w => { w with outstanding := none }
    else
      match o.write with
      | .record kind => s.recordWritten kind st
      | .block => s.blockWritten st

/-- A matching OK text read fills the older REQUESTED staging block; with none the return is discarded (R135). -/
def State.fillStaging (s : State) (d : DeskId) (data : List BeatData) : State :=
  match (s.desk d).olderRequested with
  | none => s
  | some (second, b) =>
    let bytes := blockBytes s.freeUse data
    let s := { s with freeUse := if data.length < 4 then s.freeUse + 1 else s.freeUse }
    s.onDesk d fun k =>
      if second then { k with staging1 := .full b bytes } else { k with staging0 := .full b bytes }

/-- A fetch error: FETCH_ERROR with the failed block, and the current item is cut with TEXT LOST (R139). -/
def State.fetchError (s : State) (d : DeskId) : State :=
  match (s.desk d).olderRequested, (s.desk d).context with
  | some (_, b), some c =>
    if c.segment = .text then
      let s := s.reportStory .fetchError (deskSubject d) c.handle (addrBytes b.address ++ leBytes 2 b.first)
      (((s.cutCurrent d c .textLost none).settleEnded d c.handle).testFlag d).testRooms
    else s
  | _, _ => s

/-- A FETCH completion: discarded when its epoch is not the desk's present one (R135, R136, R139). -/
def State.fetchReturn (s : State) (d : DeskId) (e : BitVec 8) (st : Status) (data : List BeatData) : State :=
  if (s.desk d).epoch = e then
    match st with
    | .ok => s.fillStaging d data
    | .error => s.fetchError d
  else s

/-- Whether an entry is one a downstream completion can match: WAITING and without the LOCAL mark (R9). -/
def QueueEntry.awaits (e : QueueEntry) : Bool := e.result.isNone && !e.isLocal

/-- The first entry that awaits a completion, and its place in the queue (R9). -/
def State.oldestWaiting (s : State) : Option (Nat × QueueEntry) :=
  (s.entries.zipIdx.find? fun x => x.1.awaits).map fun x => (x.2, x.1)

/-- A downstream completion is matched by order alone and dealt with by the owner of its entry; with no entry waiting it
is discarded (R9). -/
def State.complete (s : State) (st : Status) (data : List BeatData) : State :=
  match s.oldestWaiting with
  | none => s
  | some (i, e) =>
    match e.owner with
    | .upstream =>
      let kept := match e.access with
        | .read => data
        | .write => []
      { s with entries := s.entries.set i { e with result := some ⟨st, kept⟩ } }
    | .fetch d epoch => ({ s with entries := s.entries.eraseIdx i } : State).fetchReturn d epoch st data
    | .report => ({ s with entries := s.entries.eraseIdx i } : State).writerReturn st
    | .snapshot => ({ s with entries := s.entries.eraseIdx i } : State).writerReturn st

/-- The oldest UPSTREAM entry, once COMPLETE, is returned upstream and removed (R10). -/
def State.returnUpstream (s : State) : State :=
  match s.entries.zipIdx.find? fun x => decide (x.1.owner = .upstream) with
  | none => s
  | some (e, i) =>
    match e.result with
    | none => s
    | some c => { s with entries := s.entries.eraseIdx i, upBus := some c }

end Sys2Proof.Machine
end

