-- ==== Sys2Proof/Machine/Desks.lean ====
section
/-!
DEFINITION. The desk commands (R84, R85, R98, R99) and the two resets of the whole part (R19, R31, R34 and the "After
Reset" rules of every chapter).
-/

namespace Sys2Proof.Machine

/-! ### Desk commands -/

/-- OPEN DESK of a CLOSED desk (R84). -/
def State.openDesk (s : State) (d : DeskId) : State := (s.onDesk d fun k => { k with isOpen := true }).testFlag d

/-- HOLD DESK: HELD is added (R98). -/
def State.holdDesk (s : State) (d : DeskId) : State := (s.onDesk d fun k => { k with held := true }).testFlag d

/-- FREE DESK: HELD is removed (R99). -/
def State.freeDesk (s : State) (d : DeskId) : State := (s.onDesk d fun k => { k with held := false }).testFlag d

/-- A holder of a desk that is being closed is released; a mark that is ACTIVE becomes CUT (R85). -/
def State.closeItem (s : State) (d : DeskId) (h : HandleId) (isStory : Bool) : State :=
  let s := s.releaseHolder h
  if isStory ∧ s.markAt h d = .active then s.setMark h d .cut else s

/-- A follow-on or queue entry of a desk that is being closed is removed: its holder is released and a STORY entry's mark
becomes DROPPED (R85). -/
def State.closeEntry (d : DeskId) (s : State) (e : DeskEntry) : State := (s.releaseHolder e.handle).dropMark d e

/-- A follow-on place as queue entries. -/
def followOnEntries : Option FollowOn → List DeskEntry
  | none => []
  | some f => [{ handle := f.handle, kind := .story, cls := f.cls }]

/-- The entries a closing desk removes, in the order their holders are released: direct next item, saved context's
follow-on, queue from head to tail (R85). -/
def Desk.removedEntries (k : Desk) : List DeskEntry :=
  followOnEntries k.directNext ++ followOnEntries k.savedFollowOn ++ k.queue

/-- The stories that lose a holder when a desk closes, in the order the holders are released (R85). -/
def Desk.heldStories (k : Desk) : List HandleId :=
  (k.context.map SendContext.handle).toList ++ (k.saved.map SavedContext.handle).toList ++
    k.removedEntries.map DeskEntry.handle

/-- A desk as CLOSE DESK leaves it: nothing held or buffered, the flag clear, CLOSED; the epoch is raised when there was
a current item. Its pause-reason set, shift state, column and underrun count stay (R85, R106). -/
def Desk.closed (k : Desk) : Desk :=
  { k with
    isOpen := false, queue := [], directNext := none, savedFollowOn := none, preempt := false, context := none,
    saved := none, buffer := [], staging0 := .empty, staging1 := .empty
    epoch := if k.context.isSome then k.epoch + 1 else k.epoch }

/-- DESK_CLOSED: the desk, the number of entries removed, and the cut current item, FFh when there was none (R85). -/
def State.reportClosed (s : State) (d : DeskId) (c : Option SendContext) (removed : Nat) : State :=
  match c with
  | some c => s.reportStory .deskClosed (deskSubject d) c.handle [byteOf removed]
  | none =>
    s.report { kind := .deskClosed, subject := deskSubject d, handle := noneByte, generation := noneByte, serial := 0,
               minute := s.clock.minute, detail := [byteOf removed] }

/-- CLOSE DESK of an OPEN desk (R85): holders and marks in order, the desk emptied and CLOSED, DESK_CLOSED, and then the
transitions of every story that lost a holder. -/
def State.closeDesk (s : State) (d : DeskId) : State :=
  let k := s.desk d
  let s := match k.context with
    | some c => s.closeItem d c.handle (decide (c.kind = .story))
    | none => s
  let s := match k.saved with
    | some v => s.closeItem d v.handle true
    | none => s
  let s := k.removedEntries.foldl (State.closeEntry d) s
  let s := (s.onDesk d Desk.closed).reportClosed d k.context k.removedEntries.length
  (k.heldStories.foldl State.settleStory s).testRooms

/-! ### SOFT RESET (R31) -/

/-- A desk after SOFT RESET (Tables 5-1, 6-1 and 7-1): everything empty and CLOSED, the epoch raised by one. -/
def Desk.softReset (k : Desk) : Desk := { epoch := k.epoch + 1 }

/-- A window after SOFT RESET (Table 3-1): the set-up mark kept, the intake position at the shadow base. -/
def Window.softReset (k : Window) (base : Addr) : Window := { setUp := k.setUp, intake := base }

/-- A receiver after SOFT RESET (R171): filter, retimer, break state with its run and measured length kept. -/
def Receiver.softReset (r : Receiver) : Receiver :=
  { r.restart .off with mismatch := false, capture := none, errorCount := 0 }

/-- A trunk after SOFT RESET: DOWN, its transmitter completing its symbol in progress (R154, R171, R187). -/
def Trunk.softReset (k : Trunk) : Trunk :=
  { transmitter := k.transmitter.map fun f => { f with stopping := true }
    receiver := k.receiver.softReset
    bringUp := { } }

/-- The report writer after SOFT RESET, before SOFT_RESET_DONE: an outstanding write is marked abandoned (R31, R191). -/
def ReportWriter.softReset (w : ReportWriter) : ReportWriter :=
  { outstanding := w.outstanding.map fun o => { o with abandoned := true } }

/-- SOFT RESET (R31): CONFIGURE with the setup kept, every story, window, desk and trunk put back, and SOFT_RESET_DONE. -/
def State.softReset (s : State) : State :=
  let t : State :=
    { s with
      mode := .configure
      hold := none
      windows := Vector.ofFn fun w => (s.window w).softReset (BitVec.ofNat 28 (s.windowBase w))
      stories := s.stories.map Story.cleared
      completion := []
      desks := s.desks.map Desk.softReset
      trunks := s.trunks.map Trunk.softReset
      writer := s.writer.softReset }
  t.reportPlain .softResetDone noneByte []

/-! ### Hard reset (R19, R21, R34) -/

/-- A hard reset: every block at its hard-reset state, the page base from the straps. A request still presented stays
presented, as a new one; the input pins keep their levels, and the command queue is outside the part (R19, R21, R34). -/
def State.hardReset (s : State) (straps : BitVec 16) : State :=
  { State.reset with
    straps := straps
    port := s.port.map fun p => { p with outcomeFixed := false }
    trunks := s.trunks.map fun k => { receiver := { rxd := k.receiver.rxd } }
    clock := { pin := s.clock.pin }
    freeUse := s.freeUse
    pending := s.pending }

end Sys2Proof.Machine
end

