-- ==== Sys2Proof/Machine/Control.lean ====
section
/-!
DEFINITION. The control unit (Chapter 2): from a page write to a control item (R22, R23), the checks of a commit (R25 to
R29) and its effects (R25, R56), the checks and effects of a command (R32, Table 2-10), the consumed index (R191), and the
carrying out of the item at the head of the control FIFO (R24).
-/

namespace Sys2Proof.Machine

/-! ### From write to control item (R22, R23) -/

/-- The enabled bytes of a word of the page, by page offset. -/
def wordCells (off : Nat) (b : Beat) : List Host.Cell :=
  (List.range 8).filterMap fun k => if b.enables.getLsbD k then some (off + k, beatByte b.data k) else none

/-- The value of a word's byte, 0 when the write does not enable it (R22). -/
def cellByte (cells : List Host.Cell) (off : Nat) : Byte := (Cells.find off cells).getD 0

/-- The command word of a write of E00h, with unenabled bytes 0 (R22). -/
def commandOf (off : Nat) (cells : List Host.Cell) : CommandWord :=
  { code := cellByte cells off
    target := cellByte cells (off + 1)
    handle := cellByte cells (off + 2)
    generation := cellByte cells (off + 3)
    value := BitVec.ofNat 32 (leNat ((List.range 4).map fun i => cellByte cells (off + 4 + i))) }

/-- The value of a write of E08h: bytes 0 and 1, an unenabled one counting as 0 (R22). -/
def consumedOf (off : Nat) (cells : List Host.Cell) : Nat :=
  leNat [cellByte cells off, cellByte cells (off + 1)]

/-- An earlier word is staged: the stage is restarted for another entry's word, and otherwise grows (R23). -/
def stageWord (stage : Option Stage) (e : EntryId) (cells : List Host.Cell) : Stage :=
  let old := match stage with
    | some g => if g.entry = e then g.cells else []
    | none => []
  { entry := e, cells := cells.foldl (fun m c => Cells.put c.1 c.2 m) old }

/-- Whether the stage belongs to an entry and holds every earlier word of it (R23). -/
def stageComplete (stage : Option Stage) (e : EntryId) : Bool :=
  match stage with
  | none => false
  | some g =>
    decide (g.entry = e) &&
      (List.range (e.words - 1)).all fun i => g.cells.any fun c => decide ((c.1 - e.base) / 8 = i)

/-- The staged bytes of an entry. -/
def stagedCells (stage : Option Stage) (e : EntryId) : List Host.Cell :=
  match stage with
  | none => []
  | some g => if g.entry = e then g.cells else []

/-- The entry stage and the actions made so far of a write. -/
structure Copied where
  stage : Option Stage
  actions : List Action
  deriving DecidableEq, Repr

/-- One word of a write, at its page offset, is taken by the control unit (R22, R23). -/
def copyWord (x : Copied) (off : Nat) (b : Beat) : Copied :=
  let cells := wordCells off b
  if cells = [] then x
  else
    match pageWord off with
    | .noItem => x
    | .command => if b.enables.getLsbD 0 then { x with actions := x.actions ++ [.command (commandOf off cells)] } else x
    | .consumed =>
      if b.enables.getLsbD 0 || b.enables.getLsbD 1 then
        { x with actions := x.actions ++ [.consumed (consumedOf off cells)] }
      else x
    | .entryWord e i =>
      if e.words = 1 then { x with actions := x.actions ++ [.commit e true cells] }
      else if i + 1 < e.words then { x with stage := some (stageWord x.stage e cells) }
      else
        { stage := none
          actions := x.actions ++ [.commit e (stageComplete x.stage e) (stagedCells x.stage e ++ cells)] }

/-- The words of a page write in address order, from a page offset (R22). -/
def copyWords (x : Copied) : Nat → List Beat → Copied
  | _, [] => x
  | off, b :: rest => copyWords (copyWord x off b) (off + 8) rest

/-- The offset of an address in the control page. -/
def pageOffset (a : Addr) : Nat := a.toNat % 4096

/-- What the control unit makes of a page write, with the stage as it stands (R22). -/
def State.copyOf (s : State) (a : Addr) (beats : List Beat) : Copied :=
  copyWords { stage := s.stage, actions := [] } (pageOffset a) beats

/-- The most items of the control FIFO (R24). -/
def fifoLimit : Nat := 4

/-- The copy of a forwarded page write changes the stage, and its actions enter the control FIFO as one item (R22). -/
def State.takeCopy (s : State) (x : Copied) : State :=
  { s with stage := x.stage, fifo := if x.actions = [] then s.fifo else s.fifo ++ [x.actions] }

/-! ### The checks of a commit (R25 to R29) -/

/-- A shadow byte of an entry, by its offset in the entry. -/
def entryByte (m : List Host.Cell) (e : EntryId) (i : Nat) : Nat := (Shadow.read m (e.base + i)).toNat

/-- Whether the top four bits of an address field are zero (R26). -/
def addressLegal (m : List Host.Cell) (off : Nat) : Bool := decide (leNat (Shadow.bytes m off 4) < 2 ^ 28)

/-- Whether the fields of an entry's new value are legal (Tables 2-2 to 2-7, R26). -/
def fieldsLegal (m : List Host.Cell) (e : EntryId) : Bool :=
  let byte := entryByte m e
  match e with
  | .general n =>
    match n with
    | 0 => addressLegal m 0 && decide (byte 4 ≤ 7)
    | 1 => true
    | 2 => decide (1 ≤ byte 0 ∧ byte 0 ≤ 64 ∧ 1 ≤ byte 1 ∧ 1 ≤ byte 2 ∧ byte 2 ≤ 8)
    | 3 => (List.range 6).all (fun i => decide (byte i ≤ 31)) && decide ((List.range 6).map byte).Nodup
    | 4 => decide (byte 0 ≤ 3)
  | .window _ =>
    addressLegal m e.base && decide (byte 8 ≤ 8 ∧ byte 9 ≤ 15 ∧ (byte 10 ≤ 3 ∨ byte 10 = 255) ∧ byte 11 ≤ 7)
  | .trunk t =>
    decide (1 ≤ byte 16 ∧ byte 16 ≤ 15 ∧ byte 17 ≤ 3 ∧ byte 18 ≤ 31 ∧ byte 19 ≤ 3 ∧ byte 20 ≤ 15) &&
      (Setup.slots m t).all fun k => decide (Setup.slotDesk m t k ≤ 24)
  | .desk _ => decide ((byte 8 = 0 ∨ (20 ≤ byte 8 ∧ byte 8 ≤ 72)) ∧ byte 9 ≤ 7)
  | .agency _ => decide (1 ≤ byte 4 ∧ byte 4 ≤ 4 ∧ byte 5 ≤ 8)
  | .phrase _ => decide (byte 0 ≤ 31)
  | .codeWord _ _ => true
  | .convWord _ => true

/-- Whether the base of an entry is aligned as it requires: a window to its size, a report ring to its bytes (R26). -/
def baseAligned (m : List Host.Cell) (e : EntryId) : Bool :=
  match e with
  | .general n =>
    if n = 0 ∧ Setup.ringCode m ≠ 0 then decide (Setup.ringBase m % (16 * ringRecords (Setup.ringCode m)) = 0) else true
  | .window w => decide (Setup.windowBase m w % Setup.windowSize m w = 0)
  | .trunk _ => true
  | .desk _ => true
  | .agency _ => true
  | .phrase _ => true
  | .codeWord _ _ => true
  | .convWord _ => true

/-- Whether two ranges, each a base and a length, share an address. -/
def rangesMeet (a n b k : Nat) : Bool := decide (a < b + k ∧ b < a + n)

/-- Whether the ring of a setup meets a range; no ring meets none (R27). -/
def ringMeets (m : List Host.Cell) (b k : Nat) : Bool :=
  decide (Setup.ringCode m ≠ 0) && rangesMeet (Setup.ringBase m) (16 * ringRecords (Setup.ringCode m)) b k

/-- Whether a window entry's new value overlaps the control page, another set-up window or the report ring, or a new
report ring overlaps the page or a set-up window (R25 step 5, R27). -/
def State.overlaps (s : State) (m : List Host.Cell) (e : EntryId) : Bool :=
  match e with
  | .general n =>
    decide (n = 0) &&
      (ringMeets m s.pageBase 4096 ||
        allWindows.any fun w => (s.window w).setUp && ringMeets m (Setup.windowBase m w) (Setup.windowSize m w))
  | .window w =>
    let b := Setup.windowBase m w
    let k := Setup.windowSize m w
    rangesMeet b k s.pageBase 4096 || ringMeets m b k ||
      allWindows.any fun v =>
        decide (v ≠ w) && (s.window v).setUp && rangesMeet b k (Setup.windowBase m v) (Setup.windowSize m v)
  | .trunk _ => false
  | .desk _ => false
  | .agency _ => false
  | .phrase _ => false
  | .codeWord _ _ => false
  | .convWord _ => false

/-- The desk numbers that the four slot maps name, spare slots apart (R28). -/
def mappedDesks (m : List Host.Cell) : List Nat :=
  (allTrunks.flatMap fun t => (Setup.slots m t).map fun k => Setup.slotDesk m t k).filter fun n => decide (n ≠ 0)

/-- Whether a trunk commit maps a desk twice (R28). -/
def duplicateDesk (m : List Host.Cell) (e : EntryId) : Bool :=
  match e with
  | .trunk _ => decide (¬ (mappedDesks m).Nodup)
  | .general _ => false
  | .window _ => false
  | .desk _ => false
  | .agency _ => false
  | .phrase _ => false
  | .codeWord _ _ => false
  | .convWord _ => false

/-- Whether an entry is locked in the present mode (R29, Table 2-9). -/
def State.locked (s : State) (e : EntryId) : Bool :=
  match s.mode with
  | .configure => false
  | .run =>
    match e with
    | .general n => decide (n ≠ 1 ∧ n ≠ 4)
    | .window w => (s.window w).enabled || !(s.window w).stories.isEmpty
    | .trunk t => decide ((s.trunk t).bringUp.state ≠ .down)
    | .desk d => (s.desk d).isOpen
    | .agency _ => false
    | .phrase _ => false
    | .codeWord _ _ => false
    | .convWord _ => false

/-- SETUP_REFUSED reasons (Table 2-11). -/
inductive SetupReason where
  | unstaged
  | locked
  | outOfRange
  | alignment
  | overlap
  | duplicateDesk
  deriving DecidableEq, Repr

def SetupReason.code : SetupReason → Nat
  | .unstaged => 1
  | .locked => 2
  | .outOfRange => 3
  | .alignment => 4
  | .overlap => 5
  | .duplicateDesk => 6

/-- The first check that a commit fails, if one does, with the setup as it would stand after it (R25). -/
def State.commitFault (s : State) (e : EntryId) (staged : Bool) (m : List Host.Cell) : Option SetupReason :=
  if !staged then some .unstaged
  else if s.locked e then some .locked
  else if !fieldsLegal m e then some .outOfRange
  else if !baseAligned m e then some .alignment
  else if s.overlaps m e then some .overlap
  else if duplicateDesk m e then some .duplicateDesk
  else none

/-- A report write outstanding is marked abandoned by a commit of general setup word 0; a snapshot write is not
(R191). -/
def Outstanding.abandonRecord (o : Outstanding) : Outstanding :=
  match o.write with
  | .record _ => { o with abandoned := true }
  | .block => o

/-- What a commit changes beside the shadow: the ring indices with word 0 (R25, R191), the set-up mark and intake
position with a window entry (R27, R56). -/
def State.afterCommit (s : State) (e : EntryId) : State :=
  match e with
  | .general n =>
    if n = 0 then
      s.onWriter fun w =>
        { w with writeIndex := 0, consumed := 0, outstanding := w.outstanding.map Outstanding.abandonRecord }
    else s
  | .window w =>
    let b : Addr := BitVec.ofNat 28 (s.windowBase w)
    s.onWindow w fun k => { k with setUp := true, intake := b }
  | .trunk _ => s
  | .desk _ => s
  | .agency _ => s
  | .phrase _ => s
  | .codeWord _ _ => s
  | .convWord _ => s

/-- A commit action is carried out: refused with SETUP_REFUSED, its reason and the entry's offset, or the shadow of the
entry is replaced (R25). -/
def State.commit (s : State) (e : EntryId) (staged : Bool) (cells : List Host.Cell) : State :=
  let m := Shadow.overlay s.setup cells
  match s.commitFault e staged m with
  | some reason => s.reportPlain .setupRefused noneByte (byteOf reason.code :: leBytes 2 e.base)
  | none => ({ s with setup := m } : State).afterCommit e

/-! ### Commands (R32) -/

/-- The commands of Table 2-10. -/
inductive CommandKind where
  | go
  | softReset
  | release
  | kill
  | openDesk
  | closeDesk
  | holdDesk
  | freeDesk
  | trunkUp
  | trunkDown
  | clearTrunkErrors
  | enableWindow
  | disableWindow
  | clearWindow
  | setClock
  | snapshot
  | clearLine
  deriving DecidableEq, Repr

/-- The command of a code (Table 2-10). -/
def commandKind (code : Byte) : Option CommandKind :=
  match code.toNat with
  | 0x01 => some .go
  | 0x02 => some .softReset
  | 0x10 => some .release
  | 0x11 => some .kill
  | 0x20 => some .openDesk
  | 0x21 => some .closeDesk
  | 0x22 => some .holdDesk
  | 0x23 => some .freeDesk
  | 0x30 => some .trunkUp
  | 0x31 => some .trunkDown
  | 0x32 => some .clearTrunkErrors
  | 0x40 => some .enableWindow
  | 0x41 => some .disableWindow
  | 0x42 => some .clearWindow
  | 0x50 => some .setClock
  | 0x51 => some .snapshot
  | 0x52 => some .clearLine
  | _ => none

/-- Whether a command is accepted in a mode (Table 2-10). -/
def CommandKind.acceptedIn (k : CommandKind) (m : Mode) : Bool :=
  match k with
  | .go => decide (m = .configure)
  | .softReset => true
  | .setClock => true
  | .snapshot => true
  | .clearLine => true
  | .release | .kill | .openDesk | .closeDesk | .holdDesk | .freeDesk | .trunkUp | .trunkDown | .clearTrunkErrors
  | .enableWindow | .disableWindow | .clearWindow => decide (m = .run)

/-- COMMAND_REFUSED reasons (Table 2-11). -/
inductive CommandReason where
  | wrongMode
  | badArgument
  | stale
  | wrongState
  | busy
  | fifoFull
  deriving DecidableEq, Repr

def CommandReason.code : CommandReason → Nat
  | .wrongMode => 1
  | .badArgument => 2
  | .stale => 3
  | .wrongState => 4
  | .busy => 5
  | .fifoFull => 6

/-- The handle a number names, 0 to 127. -/
def handleOf (n : Nat) : Option HandleId := if h : n < 128 then some ⟨n, h⟩ else none
/-- The trunk a number names, 0 to 3. -/
def trunkOf (n : Nat) : Option TrunkId := if h : n < 4 then some ⟨n, h⟩ else none
/-- The window a number names, 0 to 7. -/
def windowOf (n : Nat) : Option WindowId := if h : n < 8 then some ⟨n, h⟩ else none

/-- The outcome of a command's checks in its owner: the state after it, or the reason it is refused for. -/
abbrev Checked := Except CommandReason State

/-- A command on a desk (R32 step 3). -/
def withDesk (w : CommandWord) (f : DeskId → Checked) : Checked :=
  match deskOfNumber w.target.toNat with
  | none => .error .badArgument
  | some d => f d

/-- A command on a trunk (R32 step 3). -/
def withTrunk (w : CommandWord) (f : TrunkId → Checked) : Checked :=
  match trunkOf w.target.toNat with
  | none => .error .badArgument
  | some t => f t

/-- A command on a window (R32 step 3). -/
def withWindow (w : CommandWord) (f : WindowId → Checked) : Checked :=
  match windowOf w.target.toNat with
  | none => .error .badArgument
  | some v => f v

/-- A command on a story: its handle in range, and its generation that of the record (R32, R65, R75). -/
def State.withStory (s : State) (w : CommandWord) (f : HandleId → Checked) : Checked :=
  match handleOf w.handle.toNat with
  | none => .error .badArgument
  | some h => if (s.story h).generation = w.generation then f h else .error .stale

/-- GO (R30). -/
def State.goCommand (s : State) : Checked := .ok { s with mode := .run }

/-- RELEASE (R65). -/
def State.releaseCommand (s : State) (w : CommandWord) : Checked :=
  s.withStory w fun h =>
    if (s.story h).state = .held then .ok ((s.releaseStory h).testFlags.testRooms) else .error .wrongState

/-- KILL (R75). -/
def State.killCommand (s : State) (w : CommandWord) : Checked :=
  s.withStory w fun h =>
    if (s.story h).state.isTarget then .ok ((s.hostKill h).testFlags.testRooms) else .error .wrongState

/-- OPEN DESK (R84). -/
def State.openDeskCommand (s : State) (w : CommandWord) : Checked :=
  withDesk w fun d => if (s.desk d).isOpen then .error .wrongState else .ok (s.openDesk d)

/-- CLOSE DESK (R85). -/
def State.closeDeskCommand (s : State) (w : CommandWord) : Checked :=
  withDesk w fun d => if (s.desk d).isOpen then .ok (s.closeDesk d) else .error .wrongState

/-- HOLD DESK (R98). -/
def State.holdDeskCommand (s : State) (w : CommandWord) : Checked :=
  withDesk w fun d => if (s.desk d).held then .error .wrongState else .ok (s.holdDesk d)

/-- FREE DESK (R99). -/
def State.freeDeskCommand (s : State) (w : CommandWord) : Checked :=
  withDesk w fun d => if (s.desk d).held then .ok (s.freeDesk d) else .error .wrongState

/-- TRUNK UP (R28, R175). -/
def State.trunkUpCommand (s : State) (w : CommandWord) : Checked :=
  withTrunk w fun t => if s.trunkUpRefused t then .error .wrongState else .ok (s.trunkUp t)

/-- TRUNK DOWN (R183). -/
def State.trunkDownCommand (s : State) (w : CommandWord) : Checked :=
  withTrunk w fun t =>
    if (s.trunk t).bringUp.state = .down then .error .wrongState else .ok (s.trunkDown t)

/-- CLEAR TRUNK ERRORS (R167). -/
def State.clearErrorsCommand (s : State) (w : CommandWord) : Checked :=
  withTrunk w fun t => .ok (s.clearTrunkErrors t)

/-- ENABLE WINDOW (R27, R53): the restart offset is below the size in the shadow (R32). -/
def State.enableCommand (s : State) (w : CommandWord) : Checked :=
  withWindow w fun v =>
    if s.windowSize v ≤ w.value.toNat then .error .badArgument
    else if s.enableRefused v w.value.toNat then .error .wrongState
    else .ok (s.enableWindow v w.value.toNat)

/-- DISABLE WINDOW (R54). -/
def State.disableCommand (s : State) (w : CommandWord) : Checked :=
  withWindow w fun v => if (s.window v).enabled then .ok (s.disableWindow v) else .error .wrongState

/-- CLEAR WINDOW (R55). -/
def State.clearWindowCommand (s : State) (w : CommandWord) : Checked := withWindow w fun v => .ok (s.clearWindow v)

/-- The minute clock set to a value (R195). -/
def State.setMinute (s : State) (m : Nat) : State := { s with clock := { s.clock with minute := m } }

/-- SET CLOCK (R195). -/
def State.setClockCommand (s : State) (w : CommandWord) : Checked :=
  if w.value.toNat ≤ 1439 then .ok (s.setMinute w.value.toNat) else .error .badArgument

/-- SNAPSHOT (R193): the image of the kind is captured; BUSY while a snapshot is in progress. -/
def State.snapshotCommand (s : State) (w : CommandWord) : Checked :=
  let kind := w.target.toNat
  if 10 < kind then .error .badArgument
  else if s.writer.snapshot.isSome then .error .busy
  else
    let image := s.image kind
    .ok (s.onWriter fun x => { x with snapshot := some { kind := kind, image := image, issued := 0 } })

/-- CLEAR LINE (R192): 1 ALERT, 2 NOTICE, 3 both. -/
def State.clearLineCommand (s : State) (w : CommandWord) : Checked :=
  match w.target.toNat with
  | 1 => .ok (s.onWriter fun x => { x with alert := false })
  | 2 => .ok (s.onWriter fun x => { x with notice := false })
  | 3 => .ok (s.onWriter fun x => { x with alert := false, notice := false })
  | _ => .error .badArgument

/-- A command's range checks and effect (R32 steps 3 and 4). -/
def State.perform (s : State) (k : CommandKind) (w : CommandWord) : Checked :=
  match k with
  | .go => s.goCommand
  | .softReset => .ok s.softReset
  | .release => s.releaseCommand w
  | .kill => s.killCommand w
  | .openDesk => s.openDeskCommand w
  | .closeDesk => s.closeDeskCommand w
  | .holdDesk => s.holdDeskCommand w
  | .freeDesk => s.freeDeskCommand w
  | .trunkUp => s.trunkUpCommand w
  | .trunkDown => s.trunkDownCommand w
  | .clearTrunkErrors => s.clearErrorsCommand w
  | .enableWindow => s.enableCommand w
  | .disableWindow => s.disableCommand w
  | .clearWindow => s.clearWindowCommand w
  | .setClock => s.setClockCommand w
  | .snapshot => s.snapshotCommand w
  | .clearLine => s.clearLineCommand w

/-- Whether a command's refusal record names a story (R32). -/
def namesStory : Option CommandKind → Bool
  | some .release => true
  | some .kill => true
  | _ => false

/-- COMMAND_REFUSED: command code, target byte and reason, with handle and generation for RELEASE and KILL (R32). -/
def State.refuseCommand (s : State) (w : CommandWord) (reason : CommandReason) : State :=
  let story := namesStory (commandKind w.code)
  s.report { kind := .commandRefused, subject := noneByte,
             handle := if story then w.handle else noneByte, generation := if story then w.generation else 0,
             serial := 0, minute := s.clock.minute, detail := [w.code, w.target, byteOf reason.code, 0, 0] }

/-- A command action is carried out by the checks of R32, in order. -/
def State.command (s : State) (w : CommandWord) : State :=
  match commandKind w.code with
  | none => s.refuseCommand w .badArgument
  | some k =>
    if k.acceptedIn s.mode then
      match s.perform k w with
      | .ok t => t
      | .error reason => s.refuseCommand w reason
    else s.refuseCommand w .wrongMode

/-- A command refused by the control unit for itself, with code FFh (R33) or the code a dropped item carried (R24). -/
def State.refusePlain (s : State) (code : Byte) (reason : CommandReason) (off : Nat) : State :=
  s.reportPlain .commandRefused noneByte ([code, 0, byteOf reason.code] ++ leBytes 2 off)

/-- Whether a consumed index is accepted: a ring, below its size, and in the circular range from the consumed index
forward to the write index (R191). -/
def State.consumedLegal (s : State) (v : Nat) : Bool :=
  let n := s.ringSize
  decide (s.ringCode ≠ 0 ∧ v < n ∧
    (v + n - s.writer.consumed) % n ≤ (s.writer.writeIndex + n - s.writer.consumed) % n)

/-- A consumed-index action (R33, R191). -/
def State.setConsumed (s : State) (v : Nat) : State :=
  if s.consumedLegal v then s.onWriter fun w => { w with consumed := v } else s.refusePlain 0xFF .badArgument 0

/-- An action is checked and takes effect, or is refused (R24). -/
def State.act (s : State) : Action → State
  | .commit e staged cells => s.commit e staged cells
  | .command w => s.command w
  | .consumed v => s.setConsumed v

/-- The item at the head leaves the FIFO, which then has room: a FIFO_FULL hold clears (R12, R24). -/
def State.leaveFifo (s : State) : State :=
  let t : State := { s with fifo := s.fifo.tail }
  match s.hold with
  | some ⟨.fifoFull, _, _⟩ => t.clearHold
  | _ => t

/-- The item at the head of the control FIFO is carried out, its actions in order, when its first action is one of the
step's kind; otherwise the step is no event of the part and the state stands (R24; log entries 5 and 7). -/
def State.carryOut (s : State) (mine : Action → Bool) : State :=
  match s.fifo with
  | [] => s
  | [] :: _ => s
  | (a :: rest) :: _ => if mine a then ((a :: rest).foldl State.act s).leaveFifo else s

/-- Whether an action is a command of a kind; `none` for an unknown code. -/
def Action.isCommand (k : Option CommandKind) : Action → Bool
  | .command w => decide (commandKind w.code = k)
  | .commit _ _ _ => false
  | .consumed _ => false

/-- Whether an action is a commit. -/
def Action.isCommit : Action → Bool
  | .commit _ _ _ => true
  | .command _ => false
  | .consumed _ => false

/-- Whether an action is a consumed-index action. -/
def Action.isConsumed : Action → Bool
  | .consumed _ => true
  | .commit _ _ _ => false
  | .command _ => false

end Sys2Proof.Machine
end

