-- ==== Sys2Proof/Machine/Store.lean ====
section
/-!
DEFINITION. The upstream side of the store interposer (Chapter 1): a request is presented and taken (R3), checked for its
form (R2), classified (R4) and forwarded, absorbed or held (R3, R5 to R7, R11), and the settlement of a hold at its expiry
(R12, R24, R50, R51).
-/

namespace Sys2Proof.Machine

/-! ### Forwarding and absorbing (R3, R8, R10) -/

/-- Whether a request is a read or a write (R8). -/
def accessOf : BusRequest → Access
  | .read _ _ => .read
  | .write _ _ => .write

/-- A request is issued on the downstream port: an UPSTREAM entry is appended, WAITING, and the request leaves the upstream
port (R3). -/
def State.forward (s : State) (r : BusRequest) : State :=
  { s with
    entries := s.entries ++ [{ owner := .upstream, access := accessOf r, isLocal := false, result := none }]
    downBus := some r
    port := none }

/-- A request is accepted without going downstream: its LOCAL entry, COMPLETE from the start, is appended; when no older
upstream request is outstanding its completion goes back in the same event (R3, R8, R10; log entry 11). -/
def State.acceptLocal (s : State) (r : BusRequest) (c : Completion) : State :=
  if s.upstreamEntries = 0 then { s with upBus := some c, port := none }
  else
    { s with
      entries := s.entries ++ [{ owner := .upstream, access := accessOf r, isLocal := true, result := some c }]
      port := none }

/-- A write is absorbed: its completion is OK (R5, R8). -/
def State.absorb (s : State) (r : BusRequest) : State := s.acceptLocal r { status := .ok, data := [] }

/-- The completion of a request refused for its form: ERROR, and for a read the beats it asked for, all zero (R2). -/
def refusedCompletion : BusRequest → Completion
  | .read _ n => { status := .error, data := List.replicate n 0 }
  | .write _ _ => { status := .error, data := [] }

/-- A hold of the request presented begins, with the hold limit in force (R11, R13). -/
def State.beginHold (s : State) (cause : HoldCause) : State :=
  { s with hold := some { cause := cause, limit := s.holdLimit, elapsed := 0 } }

/-! ### Classification (R2, R4) -/

/-- Whether a request has the form of R1: 1 to 4 beats on 8-byte boundaries within one 32-byte block (R2; log entry
9). -/
def requestInForm (r : BusRequest) : Bool :=
  decide (1 ≤ r.beatCount ∧ r.beatCount ≤ 4 ∧ r.address.toNat % 8 = 0 ∧ r.address.toNat % 32 / 8 + r.beatCount ≤ 4)

/-- The first window whose held span holds one of a write's enabled bytes (R4 step 2, R5). -/
def State.touchedWindow (s : State) (bytes : List (Addr × Byte)) : Option WindowId :=
  allWindows.find? fun w => bytes.any fun b => s.inHeldSpan w b.1

/-- The ENABLED window a write lies in (R4 step 4). -/
def State.enabledWindow (s : State) (a : Addr) : Option WindowId :=
  allWindows.find? fun w => (s.window w).enabled && s.inWindow w a

/-- A control-page write (R4 step 3, R6): held when it would make a control item and the FIFO is full; otherwise forwarded,
and its copy taken. -/
def State.takePageWrite (s : State) (a : Addr) (beats : List Beat) : State :=
  let x := s.copyOf a beats
  if x.actions ≠ [] ∧ fifoLimit ≤ s.fifo.length then s.beginHold .fifoFull
  else (s.forward (.write a beats)).takeCopy x

/-- A write in an ENABLED window (R4 step 4, R7): the parser's outcome, and the tests that follow its effects on desks and
rooms (R52, R94). -/
def State.takeWindowWrite (s : State) (w : WindowId) (a : Addr) (beats : List Beat) : State :=
  match s.intakeWrite w a beats with
  | .forwarded translated t => ((t.forward (.write a translated)).testFlags).testRooms
  | .held cause => s.beginHold cause

/-- A well-formed write with an enabled byte, by steps 2 to 5 of R4. A protected write is handed on with the address of its
first enabled byte (R49). -/
def State.takeWrite (s : State) (a : Addr) (beats : List Beat) (bytes : List (Addr × Byte)) : State :=
  match s.touchedWindow bytes with
  | some w => (s.absorb (.write a beats)).protectWrite w ((bytes.head?.map (·.1)).getD a)
  | none =>
    if s.inPage a then s.takePageWrite a beats
    else
      match s.enabledWindow a with
      | some w => s.takeWindowWrite w a beats
      | none => s.forward (.write a beats)

/-- A taken request is classified and its outcome settled (R2, R4). -/
def State.classify (s : State) (r : BusRequest) : State :=
  if requestInForm r then
    match r with
    | .read _ _ => s.forward r
    | .write a beats => if enabledBytes a beats = [] then s.forward r else s.takeWrite a beats (enabledBytes a beats)
  else s.acceptLocal r (refusedCompletion r)

/-! ### Taking a request (R3, R14) -/

/-- A request is presented at the upstream port; one that already stands there is still the one presented (R3; log entry
10). -/
def State.present (s : State) (r : BusRequest) : State :=
  match s.port with
  | some _ => s
  | none => { s with port := some { request := r, outcomeFixed := false } }

/-- The own-wait count after an upstream grant (R14). -/
def State.countWait (s : State) : State := if s.ownReady then { s with ownWait := s.ownWait + 1 } else s

/-- The request presented is taken: with its outcome fixed it is issued as it is, otherwise it is classified (R3, R12). -/
def State.takeGranted (s : State) : State :=
  match s.port with
  | none => s
  | some p => if p.outcomeFixed then s.countWait.forward p.request else s.countWait.classify p.request

/-- TAKE_UPSTREAM_REQUEST: a request is presented, and taken when the arbiter grants the upstream side (R3, R14). -/
def State.takeUpstream (s : State) (r : BusRequest) : State :=
  let s := s.present r
  if s.grantsUpstream then s.takeGranted else s

/-! ### The expiry of a hold (R12) -/

/-- The command code a dropped item would have carried: FFh when its write does not enable byte 0 of E00h (R24). -/
def State.droppedCode (s : State) (bytes : List (Addr × Byte)) : Byte :=
  match bytes.find? fun b => decide (b.1.toNat = s.pageBase + 0xE00) with
  | some b => b.2
  | none => 0xFF

/-- The page offset of the word that holds a write's first enabled byte: the first word of the write (2.1, R24). -/
def firstWordOffset (bytes : List (Addr × Byte)) : Nat :=
  match bytes with
  | [] => 0
  | b :: _ => pageOffset b.1 / 8 * 8

/-- A FIFO_FULL hold expires: the item is dropped with COMMAND_REFUSED, and the write is to be forwarded without a copy
(R12, R24). -/
def State.expireFifo (s : State) (p : PortRequest) : State :=
  let s : State := { s with hold := none, port := some { p with outcomeFixed := true } }
  let bytes := requestBytes p.request
  s.refusePlain (s.droppedCode bytes) .fifoFull (firstWordOffset bytes)

/-- A hold expires: its owner settles the request presented (R12, R24, R50, R51). The reserve test comes last in the event, so
that a WINDOW_LOW (R52) stands behind STORY_REFUSED or WINDOW_FULL: the model's choice, log entry 42. -/
def State.expireHold (s : State) (h : Hold) (p : PortRequest) : State :=
  let t : State := { s with hold := none }
  let bytes := requestBytes p.request
  match h.cause with
  | .fifoFull => s.expireFifo p
  | .ringFull w => ((t.absorb p.request).expireRing w bytes).testRooms
  | .tableFull w start => ((t.absorb p.request).expireTable w start bytes).testRooms

/-- HOLD_TIMER_EXPIRY: without a hold the expiry does nothing (R12). -/
def State.holdExpiry (s : State) : State :=
  match s.hold, s.port with
  | some h, some p => s.expireHold h p
  | _, _ => s

end Sys2Proof.Machine
end

