-- ==== Sys2Proof/Machine/Clock.lean ====
section
/-!
DEFINITION. The minute clock (R194): which edges of the MINUTE pin advance it, the filter of the pin, and what an advance
does (R66).
-/

namespace Sys2Proof.Machine

/-- The level of the MINUTE pin after an edge: high is true (R194). -/
def edgeLevel : Edge → Bool
  | .rising => true
  | .falling => false

/-- Whether an edge is of the kind selected by general setup word 4: 0 off, 1 rising, 2 falling, 3 both (R194, Table
2-2). -/
def State.selects (s : State) (e : Edge) : Bool :=
  match s.edgeSelect, e with
  | 1, .rising => true
  | 2, .falling => true
  | 3, _ => true
  | _, _ => false

/-- The minute after one, from 1439 to 0 (R194). -/
def nextMinute (m : Nat) : Nat := (m + 1) % 1440

/-- The pin, its last sample and the accepted level at the level of an edge just accepted (R194; log entry 24). -/
def Clock.atEdge (c : Clock) (e : Edge) : Clock :=
  { c with pin := edgeLevel e, lastSample := some (edgeLevel e), accepted := some (edgeLevel e) }

/-- The clock advances by one, the stories HELD for the new minute are released, and the tests that follow placements are
made (R66, R94, R194). -/
def State.advanceMinute (s : State) : State :=
  let m := nextMinute s.clock.minute
  (((s.setMinute m).releaseMinute m).testFlags).testRooms

/-- MINUTE_ADVANCE: an accepted edge of the kind selected; an edge that is not selected advances nothing (R194). -/
def State.minuteEdge (s : State) (e : Edge) : State :=
  if s.selects e then ({ s with clock := s.clock.atEdge e } : State).advanceMinute else s

/-- A sample of the MINUTE pin through the filter, with the accepted edge it makes, if any (R194). -/
def Clock.sample (c : Clock) : Clock × Option Edge :=
  let d : Clock := { c with lastSample := some c.pin }
  if c.lastSample = some c.pin then
    match c.accepted with
    | none => ({ d with accepted := some c.pin }, none)
    | some a =>
      if c.pin = a then (d, none)
      else ({ d with accepted := some c.pin }, some (if c.pin then .rising else .falling))
  else (d, none)

end Sys2Proof.Machine
end

