-- ==== Sys2Proof/Machine/Tick.lean ====
section
/-!
DEFINITION. One period of the line reference clock LREF: the hold timer (R13), the sampling of MINUTE (R194), the sampling
of RXD through filter, retimer and run count (R155 to R157), the measurement and the units taken (R159, R160), the link and
bring-up limit timers (R180, R184) and the unit timers of the transmitters (R143). An event that a period makes due joins
the command queue, to be carried out by a step of its own (log entry 8).
-/

namespace Sys2Proof.Machine

/-! ### Hold timer and MINUTE pin -/

/-- The hold timer runs for a period, and whether its hold has expired (R13). -/
def Hold.run (h : Hold) : Hold × Bool :=
  ({ h with elapsed := h.elapsed + 1 }, decide (Config.lrefPerMicrosecond * h.limit ≤ h.elapsed + 1))

/-- A period of the hold timer (R12, R13). -/
def State.tickHold (s : State) : State × List Instr :=
  match s.hold with
  | none => (s, [])
  | some h => ({ s with hold := some h.run.1 }, if h.run.2 then [.holdTimerExpiry] else [])

/-- A period of the MINUTE sampling: a sample at each microsecond; a selected edge is an advance (R194). -/
def State.tickMinute (s : State) : State × List Instr :=
  if s.clock.lref + 1 < Config.lrefPerMicrosecond then
    ({ s with clock := { s.clock with lref := s.clock.lref + 1 } }, [])
  else
    let x := ({ s.clock with lref := 0 } : Clock).sample
    ({ s with clock := x.1 },
      match x.2 with
      | some e => if s.selects e then [.minuteAdvance e] else []
      | none => [])

/-! ### Receiver: sampling (R155 to R157, R159) -/

/-- Whether a sample is an accepted transition (R155). -/
def Receiver.isTransition (r : Receiver) : Bool := decide (r.rxd = r.lastSample ∧ r.rxd ≠ r.accepted)

/-- The length of the run that an accepted transition ends, in samples, at most 255 (R159). -/
def Receiver.runLength (r : Receiver) : Nat := min 255 (r.run + 1)

/-- The measurement after an accepted transition: the first opens it, each later one counts (R159). -/
def Receiver.measure (r : Receiver) : Option Measurement :=
  match r.measurement with
  | none => some { count := 0, shortest := 255 }
  | some m => some { count := m.count + 1, shortest := min m.shortest r.runLength }

/-- The break event that a sample makes: the 256th sample in a row at SPACE with no break, or at MARK in a break
(R157). The count restarts at 0 at the accepted transition, which is the second sample of the new level, so the event comes
with the 258th sample of the line at that level; the guide's 'after its first 256 samples' (section 9.2, R170) leaves those
two samples open, and the model takes the count as R157 restarts it (log entry 41). -/
def Receiver.breakEvent (r : Receiver) (t : TrunkId) : List Instr :=
  if r.isTransition = false ∧ r.run = 255 then
    match r.accepted, r.inBreak with
    | .space, false => [.breakStart t]
    | .mark, true => [.breakEnd t]
    | .space, true => []
    | .mark, false => []
  else []

/-- The measurement that a sample completes: the 64th counted transition (R159). -/
def Receiver.measurementEvent (r : Receiver) (t : TrunkId) : List Instr :=
  if r.isTransition ∧ r.alignment = .measuring then
    match r.measure with
    | some m => if m.count = 64 then [.measurementComplete t m.shortest] else []
    | none => []
  else []

/-- The position of a sample within its unit: a transition re-times the unit to position 1 (R156). -/
def Receiver.position (r : Receiver) : Nat := if r.isTransition then 1 else r.retimer

/-- Filter, run count, retimer and measurement after a sample (R155 to R157, R159). -/
def Receiver.sampled (r : Receiver) : Receiver :=
  { r with
    lastSample := r.rxd
    accepted := if r.isTransition then r.rxd else r.accepted
    run := if r.isTransition then 0 else min 256 (r.run + 1)
    retimer := r.position % 16 + 1
    measurement := if r.isTransition ∧ r.alignment = .measuring then r.measure else r.measurement }

/-! ### Receiver: units and symbols (R156, R160, R162) -/

/-- A level as a unit: 1 for mark (R142). -/
def Level.unit : Level → BitVec 1
  | .mark => 1
  | .space => 0

/-- Two FRAME patterns in a row (R160). -/
def framePairUnits : BitVec 14 := frameSymbol ++ frameSymbol

/-- A unit is taken: it joins the last 14, and the symbol in progress where symbol boundaries stand (R156, R160). -/
def Receiver.takeUnit (r : Receiver) : Receiver :=
  { r with
    units := (r.units ++ r.accepted.unit).truncate 14
    unitCount := match r.alignment with
      | .locking | .framed | .data => (r.unitCount + 1) % 7
      | .off | .measuring | .seeking => r.unitCount }

/-- The last seven units taken, unit 1 in bit 6 (R142, R156). -/
def Receiver.lastSymbol (r : Receiver) : Pattern := r.units.truncate 7

/-- The lock after a symbol of LOCKING that ends no comparison (R160). -/
def Receiver.stepLock (r : Receiver) : Receiver :=
  { r with lock := r.lock.map fun l => { l with offset := l.offset + 1 } }

/-- A symbol read in LOCKING: the expected pair is the symbols 6 and 7 after the first symbol of the last pair (R160; log
entry 20). -/
def Receiver.lockEvent (r : Receiver) (t : TrunkId) : List Instr :=
  match r.lock with
  | none => []
  | some l =>
    if l.offset + 1 = 6 ∧ r.lastSymbol ≠ frameSymbol then [.framePairFound t false]
    else if l.offset + 1 = 7 then [.framePairFound t (decide (r.lastSymbol = frameSymbol))]
    else []

/-- The word handed over with the last word symbol of a bring-up frame (R162). -/
def FrameRef.wordEvent (f : FrameRef) (t : TrunkId) (sym : Pattern) : List Instr :=
  let g := f.addWordSymbol sym
  if f.offset + 1 = 5 ∧ g.withheld = false ∧ g.values.length = 4 then [.bringUpWordReceived t (wordOfValues g.values)]
  else []

/-- The step that reads a symbol, by its role (log entry 21). -/
def State.symbolEvent (s : State) (t : TrunkId) (sym : Pattern) : List Instr :=
  match s.symbolRole t sym, (s.trunk t).receiver.ref with
  | some .settle, _ =>
    if s.isReturnSlot t .settle sym then [.returnSlotRead t sym] else [.farFrameStart t sym]
  | some .frameStart, _ => [.farFrameStart t sym]
  | some .missing, _ => [.missingFrame t sym]
  | some (.slot _), _ => [.returnSlotRead t sym]
  | some .word, some f => .symbolRead t sym :: f.wordEvent t sym
  | some .word, none => [.symbolRead t sym]
  | some .other, _ => [.symbolRead t sym]
  | none, _ => []

/-- What a unit just taken makes due: the pair compared in SEEKING at every unit, and a symbol read at every seventh unit
where boundaries stand (R156, R160, R162). -/
def State.unitEvents (s : State) (t : TrunkId) : List Instr :=
  let r := (s.trunk t).receiver
  match r.alignment with
  | .off => []
  | .measuring => []
  | .seeking => if r.units = framePairUnits then [.framePairFound t true] else []
  | .locking => if r.unitCount = 0 then r.lockEvent t else []
  | .framed => if r.unitCount = 0 then s.symbolEvent t r.lastSymbol else []
  | .data => if r.unitCount = 0 then s.symbolEvent t r.lastSymbol else []

/-- The place in LOCKING moves on with each symbol (R160). -/
def State.moveLock (s : State) (t : TrunkId) : State :=
  let r := (s.trunk t).receiver
  if r.alignment = .locking ∧ r.unitCount = 0 then s.onReceiver t Receiver.stepLock else s

/-- A sample of RXD that reads a unit (R156). -/
def State.readUnit (s : State) (t : TrunkId) : State × List Instr :=
  let u := s.onReceiver t Receiver.takeUnit
  (u.moveLock t, u.unitEvents t)

/-- A sample of RXD (R155 to R157, R159). -/
def State.sampleLine (s : State) (t : TrunkId) : State × List Instr :=
  let r := (s.trunk t).receiver
  let due := r.breakEvent t ++ r.measurementEvent t
  let u := s.onReceiver t Receiver.sampled
  if r.position = 8 then ((u.readUnit t).1, due ++ (u.readUnit t).2) else (u, due)

/-- A period of a receiver: its sample timer, reloaded at each sample from the rate in the shadow (R155). -/
def State.tickReceiver (s : State) (t : TrunkId) : State × List Instr :=
  if (s.trunk t).receiver.sampleTimer = 0 then
    let period := Config.samplePeriod (s.rateClass t)
    let x := s.sampleLine t
    (x.1.onReceiver t fun r => { r with sampleTimer := period - 1 }, x.2)
  else (s.onReceiver t fun r => { r with sampleTimer := r.sampleTimer - 1 }, [])

/-! ### Bring-up timers (R180, R184) -/

/-- A running timer after a period, and whether it has reached its time. -/
def runTimer (timer : Option Nat) (period : Nat) : Option Nat × Bool :=
  match timer with
  | none => (none, false)
  | some n => (some (n + 1), decide (period ≤ n + 1))

/-- A period of a trunk's link and bring-up limit timers (R180, R184). When both are due in one period the limit's expiry
is taken first, so that the entry to UP that follows stops the limit timer (log entry 36). -/
def State.tickBringUp (s : State) (t : TrunkId) : State × List Instr :=
  let b := (s.trunk t).bringUp
  let link := runTimer b.linkTimer (Config.linkPeriod (s.linkSelect t))
  let limit := runTimer b.limitTimer (Config.limitPeriod (s.bringUpLimit t))
  (s.onBringUp t fun b => { b with linkTimer := link.1, limitTimer := limit.1 },
    (if limit.2 then [.bringUpLimitExpiry t] else []) ++ (if link.2 then [.linkTimerExpiry t] else []))

/-! ### Transmitter (R143, R144, R146 to R148) -/

/-- A transmitter at the end of a unit: the next unit; at the end of a symbol, the next symbol of a bring-up frame, or the
step that begins the next symbol or frame or returns the line to mark (R144, R146 to R148). -/
def Framing.endUnit (f : Framing) (t : TrunkId) (n : Nat) : Framing × List Instr :=
  let g : Framing := { f with timer := 0 }
  if f.unit < 7 then ({ g with unit := f.unit + 1 }, [])
  else if f.stopping then (g, [.transmitterEntersMark t])
  else
    match f.kind with
    | .bringUp w =>
      if f.symbol < 6 then ({ g with symbol := f.symbol + 1, unit := 1, pattern := bringUpPattern w (f.symbol + 1) }, [])
      else (g, [.frameStart t])
    | .data => (g, if f.symbol ≤ n then [.slotStart t] else [.frameStart t])

/-- A period of a trunk's unit timer (R143). -/
def State.tickTransmitter (s : State) (t : TrunkId) : State × List Instr :=
  match (s.trunk t).transmitter with
  | none => (s, [])
  | some f =>
    let x := if f.timer + 1 < Config.unitPeriod f.rate then (({ f with timer := f.timer + 1 } : Framing), [])
      else f.endUnit t (s.slotCount t)
    (s.onTrunk t fun k => { k with transmitter := some x.1 }, x.2)

/-! ### The period -/

/-- Parts of a period one after another, with what they make due. -/
def chain (x : State × List Instr) (f : State → State × List Instr) : State × List Instr :=
  ((f x.1).1, x.2 ++ (f x.1).2)

/-- A period of a trunk. -/
def State.tickTrunk (x : State × List Instr) (t : TrunkId) : State × List Instr :=
  chain (chain (chain x fun s => s.tickReceiver t) fun s => s.tickBringUp t) fun s => s.tickTransmitter t

/-- A period of LREF with what it makes due. -/
def State.runPeriod (s : State) : State × List Instr :=
  allTrunks.foldl State.tickTrunk (chain (chain (s, []) State.tickHold) State.tickMinute)

/-- A period of LREF: what it makes due joins the command queue (log entry 8). -/
def State.tick (s : State) : State :=
  { s.runPeriod.1 with pending := s.pending ++ s.runPeriod.2 }

end Sys2Proof.Machine
end

