-- ==== Sys2Proof/Machine/StoreSteps.lean ====
section
/-!
DEFINITION. The meanings of the steps of the store path: HARD_RESET, the two ports, holds, and the grants of the arbiter
(Chapters 1, 7 and 11).
-/

namespace Sys2Proof.Machine

/-- HARD_RESET: every block at its hard-reset state, with the page base of the straps (R19, R21, R34, R57, R81, R100, R127,
R140, R153, R170, R187, R196). -/
def execHardReset (straps : BitVec 16) (s : State) : Host.Outcome State Fault Refusal := .next (s.hardReset straps)

/-- TAKE_UPSTREAM_REQUEST: the request presented is taken when the upstream side is granted, classified by R4, and forwarded,
absorbed or held (R2 to R7, R14). -/
def execTakeUpstreamRequest (r : BusRequest) (s : State) : Host.Outcome State Fault Refusal := .next (s.takeUpstream r)

/-- HOLD_TIMER_EXPIRY: the owner of the cause settles the held request (R12). -/
def execHoldTimerExpiry (s : State) : Host.Outcome State Fault Refusal := .next s.holdExpiry

/-- UPSTREAM_COMPLETION_RETURN: the oldest UPSTREAM entry, once COMPLETE, goes back (R10). -/
def execUpstreamCompletionReturn (s : State) : Host.Outcome State Fault Refusal := .next s.returnUpstream

/-- DOWNSTREAM_COMPLETION: matched by order and handed to the owner (R9). -/
def execDownstreamCompletion (st : Status) (data : List BeatData) (s : State) : Host.Outcome State Fault Refusal := .next (s.complete st data)

/-- FETCH_READ_GRANT: a 32-byte text read for the next eligible desk (R133). -/
def execFetchReadGrant (s : State) : Host.Outcome State Fault Refusal := .next s.grantFetch

/-- REPORT_WRITE_GRANT: the pending queue head is written at the write index (R190). -/
def execReportWriteGrant (s : State) : Host.Outcome State Fault Refusal := .next s.grantRecord

/-- SNAPSHOT_WRITE_GRANT: the next 32-byte write of the image (R193). -/
def execSnapshotWriteGrant (s : State) : Host.Outcome State Fault Refusal := .next s.grantBlock

end Sys2Proof.Machine
end

