-- ==== Sys2Proof/Machine/ControlSteps.lean ====
section
/-!
DEFINITION. The meanings of the steps that carry out the item at the head of the control FIFO (R24): commits, the consumed
index and the commands of Table 2-10.
-/

namespace Sys2Proof.Machine

/-- SETUP_COMMIT: the item at the head of the control FIFO, a commit first (R24 to R29). -/
def execSetupCommit (s : State) : Host.Outcome State Fault Refusal := .next (s.carryOut Action.isCommit)

/-- CONSUMED_INDEX: the item at the head of the control FIFO, a consumed index first (R33, R191). -/
def execConsumedIndex (s : State) : Host.Outcome State Fault Refusal := .next (s.carryOut Action.isConsumed)

/-- GO: the command at the head of the control FIFO is checked and takes effect or is refused (R30, R32). -/
def execGo (s : State) : Host.Outcome State Fault Refusal := .next (s.carryOut (Action.isCommand (some .go)))

/-- SOFT_RESET: the command at the head of the control FIFO is checked and takes effect or is refused (R31, R32). -/
def execSoftReset (s : State) : Host.Outcome State Fault Refusal := .next (s.carryOut (Action.isCommand (some .softReset)))

/-- RELEASE: the command at the head of the control FIFO is checked and takes effect or is refused (R32, R65). -/
def execRelease (s : State) : Host.Outcome State Fault Refusal := .next (s.carryOut (Action.isCommand (some .release)))

/-- KILL: the command at the head of the control FIFO is checked and takes effect or is refused (R32, R75, R76). -/
def execKill (s : State) : Host.Outcome State Fault Refusal := .next (s.carryOut (Action.isCommand (some .kill)))

/-- OPEN_DESK: the command at the head of the control FIFO is checked and takes effect or is refused (R32, R84). -/
def execOpenDesk (s : State) : Host.Outcome State Fault Refusal := .next (s.carryOut (Action.isCommand (some .openDesk)))

/-- CLOSE_DESK: the command at the head of the control FIFO is checked and takes effect or is refused (R32, R85). -/
def execCloseDesk (s : State) : Host.Outcome State Fault Refusal := .next (s.carryOut (Action.isCommand (some .closeDesk)))

/-- HOLD_DESK: the command at the head of the control FIFO is checked and takes effect or is refused (R32, R98). -/
def execHoldDesk (s : State) : Host.Outcome State Fault Refusal := .next (s.carryOut (Action.isCommand (some .holdDesk)))

/-- FREE_DESK: the command at the head of the control FIFO is checked and takes effect or is refused (R32, R99). -/
def execFreeDesk (s : State) : Host.Outcome State Fault Refusal := .next (s.carryOut (Action.isCommand (some .freeDesk)))

/-- TRUNK_UP: the command at the head of the control FIFO is checked and takes effect or is refused (R28, R32, R175). -/
def execTrunkUp (s : State) : Host.Outcome State Fault Refusal := .next (s.carryOut (Action.isCommand (some .trunkUp)))

/-- TRUNK_DOWN: the command at the head of the control FIFO is checked and takes effect or is refused (R32, R183). -/
def execTrunkDown (s : State) : Host.Outcome State Fault Refusal := .next (s.carryOut (Action.isCommand (some .trunkDown)))

/-- CLEAR_TRUNK_ERRORS: the command at the head of the control FIFO is checked and takes effect or is refused (R32, R167). -/
def execClearTrunkErrors (s : State) : Host.Outcome State Fault Refusal := .next (s.carryOut (Action.isCommand (some .clearTrunkErrors)))

/-- ENABLE_WINDOW: the command at the head of the control FIFO is checked and takes effect or is refused (R27, R32, R53). -/
def execEnableWindow (s : State) : Host.Outcome State Fault Refusal := .next (s.carryOut (Action.isCommand (some .enableWindow)))

/-- DISABLE_WINDOW: the command at the head of the control FIFO is checked and takes effect or is refused (R32, R54). -/
def execDisableWindow (s : State) : Host.Outcome State Fault Refusal := .next (s.carryOut (Action.isCommand (some .disableWindow)))

/-- CLEAR_WINDOW: the command at the head of the control FIFO is checked and takes effect or is refused (R32, R55). -/
def execClearWindow (s : State) : Host.Outcome State Fault Refusal := .next (s.carryOut (Action.isCommand (some .clearWindow)))

/-- SET_CLOCK: the command at the head of the control FIFO is checked and takes effect or is refused (R32, R195). -/
def execSetClock (s : State) : Host.Outcome State Fault Refusal := .next (s.carryOut (Action.isCommand (some .setClock)))

/-- SNAPSHOT: the command at the head of the control FIFO is checked and takes effect or is refused (R32, R193). -/
def execSnapshot (s : State) : Host.Outcome State Fault Refusal := .next (s.carryOut (Action.isCommand (some .snapshot)))

/-- CLEAR_LINE: the command at the head of the control FIFO is checked and takes effect or is refused (R32, R192). -/
def execClearLine (s : State) : Host.Outcome State Fault Refusal := .next (s.carryOut (Action.isCommand (some .clearLine)))

/-- UNKNOWN_COMMAND_CODE: a command code of no command is refused with BAD_ARGUMENT (R32). -/
def execUnknownCommandCode (s : State) : Host.Outcome State Fault Refusal := .next (s.carryOut (Action.isCommand none))

end Sys2Proof.Machine
end

