-- ==== Sys2Proof/Machine/DeskSteps.lean ====
section
/-!
DEFINITION. The meanings of the steps of the desk senders (Chapters 5 and 6).
-/

namespace Sys2Proof.Machine

/-- The flash break of a desk, when it can be taken (R122). -/
def State.breakStep (s : State) (d : DeskId) : State :=
  match s.breakReady d with
  | some (c, e) => (s.breakForFlash d c e).testFlag d
  | none => s

/-- A desk sender's turn: the flash break when it can be taken, otherwise one code group (R107, R122; log entry 12). -/
def State.composeStep (s : State) (d : DeskId) : State :=
  match s.breakReady d with
  | some _ => s.breakStep d
  | none => ((s.composeOne d).testFlag d).testRooms

/-- TAKE_NEXT_ITEM at a desk (R96), with the tests that follow it (R52, R94). -/
def execTakeNextItem (d : DeskId) (s : State) : Host.Outcome State Fault Refusal := .next (((s.takeNext d).testFlag d).testRooms)

/-- COMPOSE_GROUP at a desk (R107): a flash break that is due comes first (R122). -/
def execComposeGroup (d : DeskId) (s : State) : Host.Outcome State Fault Refusal := .next (s.composeStep d)

/-- FLASH_BREAK at a desk (R95, R122). -/
def execFlashBreak (d : DeskId) (s : State) : Host.Outcome State Fault Refusal := .next (s.breakStep d)

end Sys2Proof.Machine
end

