-- ==== Sys2Proof/Machine/TrunkSteps.lean ====
section
/-!
DEFINITION. The meanings of the steps of the trunks (Chapters 8, 9 and 10) and of the minute clock (Chapter 11).
-/

namespace Sys2Proof.Machine

/-- Whether the step MISSING_FRAME reads a symbol of this role. -/
def SymbolRole.isMissing : SymbolRole → Bool
  | .missing => true
  | .settle => false
  | .frameStart => false
  | .slot _ => false
  | .word => false
  | .other => false

/-- FRAME_START on a trunk (R146, R147). -/
def execFrameStart (t : TrunkId) (s : State) : Host.Outcome State Fault Refusal := .next (s.frameStart t)

/-- SLOT_START on a trunk (R149). -/
def execSlotStart (t : TrunkId) (s : State) : Host.Outcome State Fault Refusal := .next (s.slotStart t)

/-- TRANSMITTER_ENTERS_MARK on a trunk (R144). -/
def execTransmitterEntersMark (t : TrunkId) (s : State) : Host.Outcome State Fault Refusal := .next (s.enterMark t)

/-- BREAK_START on a trunk (R157, R182). -/
def execBreakStart (t : TrunkId) (s : State) : Host.Outcome State Fault Refusal := .next (s.breakStart t)

/-- BREAK_END on a trunk (R157, R182). -/
def execBreakEnd (t : TrunkId) (s : State) : Host.Outcome State Fault Refusal := .next (s.breakEnd t)

/-- MEASUREMENT_COMPLETE on a trunk (R159). -/
def execMeasurementComplete (t : TrunkId) (estimate : Nat) (s : State) : Host.Outcome State Fault Refusal := .next (s.measurementComplete t estimate)

/-- FRAME_PAIR_FOUND on a trunk (R160, R161). -/
def execFramePairFound (t : TrunkId) (found : Bool) (s : State) : Host.Outcome State Fault Refusal := .next (s.framePair t found)

/-- FAR_FRAME_START on a trunk (R162, R165). -/
def execFarFrameStart (t : TrunkId) (sym : Pattern) (s : State) : Host.Outcome State Fault Refusal := .next (s.readAs t sym SymbolRole.isFarStart)

/-- MISSING_FRAME on a trunk (R162 to R164). -/
def execMissingFrame (t : TrunkId) (sym : Pattern) (s : State) : Host.Outcome State Fault Refusal := .next (s.readAs t sym SymbolRole.isMissing)

/-- RETURN_SLOT_READ on a trunk (R168). -/
def execReturnSlotRead (t : TrunkId) (sym : Pattern) (s : State) : Host.Outcome State Fault Refusal := .next (s.readAs t sym fun role => s.isReturnSlot t role sym)

/-- BRING_UP_WORD_RECEIVED on a trunk (R173). -/
def execBringUpWordReceived (t : TrunkId) (w : BringUpWord) (s : State) : Host.Outcome State Fault Refusal := .next (s.wordReceived t w)

/-- LINK_TIMER_EXPIRY on a trunk (R180). -/
def execLinkTimerExpiry (t : TrunkId) (s : State) : Host.Outcome State Fault Refusal := .next (s.linkExpiry t)

/-- BRING_UP_LIMIT_EXPIRY on a trunk (R184). -/
def execBringUpLimitExpiry (t : TrunkId) (s : State) : Host.Outcome State Fault Refusal := .next (s.limitExpiry t)

/-- MINUTE_ADVANCE (R194). -/
def execMinuteAdvance (e : Edge) (s : State) : Host.Outcome State Fault Refusal := .next (s.minuteEdge e)

/-- SYMBOL_READ on a trunk (R166). -/
def execSymbolRead (t : TrunkId) (sym : Pattern) (s : State) : Host.Outcome State Fault Refusal := .next (s.readAs t sym SymbolRole.isPlain)

end Sys2Proof.Machine
end

