-- ==== Sys2Proof/Machine/Dispatch.lean ====
section
/-!
DEFINITION. The meaning of every command, arm by arm in the order of spec/opcode_table.json.
-/

namespace Sys2Proof.Machine

def exec (i : Instr) (s : State) : Host.Outcome State Fault Refusal :=
  match i with
  | .hardReset straps => Sys2Proof.Machine.execHardReset straps s
  | .takeUpstreamRequest r => Sys2Proof.Machine.execTakeUpstreamRequest r s
  | .holdTimerExpiry => Sys2Proof.Machine.execHoldTimerExpiry s
  | .upstreamCompletionReturn => Sys2Proof.Machine.execUpstreamCompletionReturn s
  | .downstreamCompletion st data => Sys2Proof.Machine.execDownstreamCompletion st data s
  | .fetchReadGrant => Sys2Proof.Machine.execFetchReadGrant s
  | .reportWriteGrant => Sys2Proof.Machine.execReportWriteGrant s
  | .snapshotWriteGrant => Sys2Proof.Machine.execSnapshotWriteGrant s
  | .setupCommit => Sys2Proof.Machine.execSetupCommit s
  | .consumedIndex => Sys2Proof.Machine.execConsumedIndex s
  | .go => Sys2Proof.Machine.execGo s
  | .softReset => Sys2Proof.Machine.execSoftReset s
  | .release => Sys2Proof.Machine.execRelease s
  | .kill => Sys2Proof.Machine.execKill s
  | .openDesk => Sys2Proof.Machine.execOpenDesk s
  | .closeDesk => Sys2Proof.Machine.execCloseDesk s
  | .holdDesk => Sys2Proof.Machine.execHoldDesk s
  | .freeDesk => Sys2Proof.Machine.execFreeDesk s
  | .trunkUp => Sys2Proof.Machine.execTrunkUp s
  | .trunkDown => Sys2Proof.Machine.execTrunkDown s
  | .clearTrunkErrors => Sys2Proof.Machine.execClearTrunkErrors s
  | .enableWindow => Sys2Proof.Machine.execEnableWindow s
  | .disableWindow => Sys2Proof.Machine.execDisableWindow s
  | .clearWindow => Sys2Proof.Machine.execClearWindow s
  | .setClock => Sys2Proof.Machine.execSetClock s
  | .snapshot => Sys2Proof.Machine.execSnapshot s
  | .clearLine => Sys2Proof.Machine.execClearLine s
  | .unknownCommandCode => Sys2Proof.Machine.execUnknownCommandCode s
  | .takeNextItem d => Sys2Proof.Machine.execTakeNextItem d s
  | .composeGroup d => Sys2Proof.Machine.execComposeGroup d s
  | .flashBreak d => Sys2Proof.Machine.execFlashBreak d s
  | .frameStart t => Sys2Proof.Machine.execFrameStart t s
  | .slotStart t => Sys2Proof.Machine.execSlotStart t s
  | .transmitterEntersMark t => Sys2Proof.Machine.execTransmitterEntersMark t s
  | .breakStart t => Sys2Proof.Machine.execBreakStart t s
  | .breakEnd t => Sys2Proof.Machine.execBreakEnd t s
  | .measurementComplete t estimate => Sys2Proof.Machine.execMeasurementComplete t estimate s
  | .framePairFound t found => Sys2Proof.Machine.execFramePairFound t found s
  | .farFrameStart t sym => Sys2Proof.Machine.execFarFrameStart t sym s
  | .missingFrame t sym => Sys2Proof.Machine.execMissingFrame t sym s
  | .returnSlotRead t sym => Sys2Proof.Machine.execReturnSlotRead t sym s
  | .bringUpWordReceived t w => Sys2Proof.Machine.execBringUpWordReceived t w s
  | .linkTimerExpiry t => Sys2Proof.Machine.execLinkTimerExpiry t s
  | .bringUpLimitExpiry t => Sys2Proof.Machine.execBringUpLimitExpiry t s
  | .minuteAdvance e => Sys2Proof.Machine.execMinuteAdvance e s
  | .symbolRead t sym => Sys2Proof.Machine.execSymbolRead t sym s

end Sys2Proof.Machine
end

