-- ==== Sys2Proof/Safety.lean ====
section
/-!
DEFINITION. The laws of the part that every step keeps: the limits of its queues, buffers and counts, and the canonical
form of the setup shadows.
-/

namespace Sys2Proof.Safety

open Sys2Proof.Machine

/-- A desk within its limits: at most 32 queue entries (R87), 8 codes in the character buffer (R108), and an underrun count
of at most 255 (R126). -/
def DeskOk (k : Desk) : Prop := k.queue.length ≤ 32 ∧ k.buffer.length ≤ 8 ∧ k.underruns ≤ 255

/-- A trunk within its limits: code-error count at most 255 (R166), switch-window count at most 8 (R164), miss count 0 or 1
(R162), run count at most 256 (R157). -/
def TrunkOk (k : Trunk) : Prop :=
  k.receiver.errorCount ≤ 255 ∧ k.receiver.switchWindow ≤ 8 ∧ k.receiver.missCount ≤ 1 ∧ k.receiver.run ≤ 256

/-- Every desk is within its limits. -/
def Desks (s : State) : Prop := ∀ d, DeskOk (s.desk d)

/-- Every trunk is within its limits. -/
def Trunks (s : State) : Prop := ∀ t, TrunkOk (s.trunk t)

/-- The completion queue holds at most 8 UPSTREAM and at most 8 own entries, and during a hold there is room for the entry
of its absorption (R8, R12). -/
def CompletionQueue (s : State) : Prop :=
  s.upstreamEntries ≤ 8 ∧ s.ownEntries ≤ 8 ∧ (s.hold.isSome → s.upstreamEntries < 8)

/-- The control FIFO holds at most 4 items (R24). -/
def ControlFifo (s : State) : Prop := s.fifo.length ≤ 4

/-- The pending report queue holds at most 16 records, and the missed count is at most 255 (R189). -/
def ReportQueue (s : State) : Prop := s.writer.queue.length ≤ 16 ∧ s.writer.missed ≤ 255

/-- The setup shadows are in their canonical form. -/
def Setup (s : State) : Prop := Memory.wf s.setup

/-- The minute clock shows a minute of the day (R194). -/
def Minute (s : State) : Prop := s.clock.minute ≤ 1439

end Sys2Proof.Safety
end

