-- ==== Sys2Proof/Certificates/Slice0/Obligations.lean ====
section
/-!
DEFINITION. The statements put to the provers. Each says in Lean what its title in OBLIGATIONS.json says in words; a
docstring names the rules it rests on. Small definitions that the statements share come first.
-/

namespace Sys2Proof.Claims

open Sys2Proof.Machine

/-- The item whose first action is being carried out stands at the head of the control FIFO; `more` are its further actions
(R24). -/
def Head (s : State) (a : Action) (more : List Action) : Prop := s.fifo.head? = some (a :: more)

/-- The rest of an item: its further actions are carried out, the item leaves the FIFO, and a FIFO_FULL hold clears (R12,
R24). -/
def itemDone (more : List Action) (t : State) : State :=
  let u := more.foldl State.act t
  { u with
    fifo := u.fifo.tail
    hold := match u.hold with
      | some ⟨.fifoFull, _, _⟩ => none
      | h => h }

/-- The record of a refused command: no subject; code, target and reason in the detail; handle and generation for RELEASE
and KILL (R32, Table 11-3). -/
def refusal (s : State) (w : CommandWord) (reason : Byte) (story : Bool) : Record :=
  { kind := .commandRefused, subject := 0xFF, handle := if story then w.handle else 0xFF,
    generation := if story then w.generation else 0, serial := 0, minute := s.clock.minute,
    detail := [w.code, w.target, reason, 0, 0] }

/-- A record that names no story: handle FFh, generation and serial 0 (R188). -/
def plain (s : State) (kind : ReportKind) (subject : Byte) (detail : List Byte) : Record :=
  { kind := kind, subject := subject, handle := 0xFF, generation := 0, serial := 0, minute := s.clock.minute,
    detail := detail }

/-- The step that carries out a command (Table 2-10). -/
def stepOf : CommandKind → Instr
  | .go => .go
  | .softReset => .softReset
  | .release => .release
  | .kill => .kill
  | .openDesk => .openDesk
  | .closeDesk => .closeDesk
  | .holdDesk => .holdDesk
  | .freeDesk => .freeDesk
  | .trunkUp => .trunkUp
  | .trunkDown => .trunkDown
  | .clearTrunkErrors => .clearTrunkErrors
  | .enableWindow => .enableWindow
  | .disableWindow => .disableWindow
  | .clearWindow => .clearWindow
  | .setClock => .setClock
  | .snapshot => .snapshot
  | .clearLine => .clearLine

/-- The code of a command (Table 2-10). -/
def codeOf : CommandKind → Byte
  | .go => 0x01
  | .softReset => 0x02
  | .release => 0x10
  | .kill => 0x11
  | .openDesk => 0x20
  | .closeDesk => 0x21
  | .holdDesk => 0x22
  | .freeDesk => 0x23
  | .trunkUp => 0x30
  | .trunkDown => 0x31
  | .clearTrunkErrors => 0x32
  | .enableWindow => 0x40
  | .disableWindow => 0x41
  | .clearWindow => 0x42
  | .setClock => 0x50
  | .snapshot => 0x51
  | .clearLine => 0x52

/-- Whether a refusal of the command names a story (R32). -/
def ofStory : CommandKind → Bool
  | .release => true
  | .kill => true
  | _ => false

/-- The modes a command is accepted in (Table 2-10). -/
def accepted : CommandKind → Mode → Bool
  | .go, m => decide (m = .configure)
  | .softReset, _ => true
  | .setClock, _ => true
  | .snapshot, _ => true
  | .clearLine, _ => true
  | _, m => decide (m = .run)

/-- The target and argument ranges of Table 2-10. -/
def InRange (s : State) (w : CommandWord) : CommandKind → Prop
  | .go => True
  | .softReset => True
  | .release => w.handle.toNat ≤ 127
  | .kill => w.handle.toNat ≤ 127
  | .openDesk => 1 ≤ w.target.toNat ∧ w.target.toNat ≤ 24
  | .closeDesk => 1 ≤ w.target.toNat ∧ w.target.toNat ≤ 24
  | .holdDesk => 1 ≤ w.target.toNat ∧ w.target.toNat ≤ 24
  | .freeDesk => 1 ≤ w.target.toNat ∧ w.target.toNat ≤ 24
  | .trunkUp => w.target.toNat ≤ 3
  | .trunkDown => w.target.toNat ≤ 3
  | .clearTrunkErrors => w.target.toNat ≤ 3
  | .enableWindow => ∃ v : WindowId, v.val = w.target.toNat ∧ w.value.toNat < s.windowSize v
  | .disableWindow => w.target.toNat ≤ 7
  | .clearWindow => w.target.toNat ≤ 7
  | .setClock => w.value.toNat ≤ 1439
  | .snapshot => w.target.toNat ≤ 10
  | .clearLine => 1 ≤ w.target.toNat ∧ w.target.toNat ≤ 3

/-- The form of a request (R1): 1 to 4 beats on 8-byte boundaries within one 32-byte block. -/
def InForm (a : Addr) (beats : Nat) : Prop :=
  1 ≤ beats ∧ beats ≤ 4 ∧ a.toNat % 8 = 0 ∧ a.toNat % 32 / 8 + beats ≤ 4

/-- A request is taken now: it is presented, no hold stands, fewer than 8 UPSTREAM entries stand, and the arbiter grants
the upstream side (R3, R14). -/
def TakenNow (s : State) (r : BusRequest) : Prop :=
  (s.port = none ∨ s.port = some ⟨r, false⟩) ∧ s.hold = none ∧ s.upstreamEntries < 8 ∧
    (s.ownWait < s.yieldCount ∨ s.ownReady = false)

/-- The own-wait count after an upstream grant (R14). -/
def waited (s : State) : Nat := if s.ownReady then s.ownWait + 1 else s.ownWait

/-- A state after a request is forwarded: issued downstream, its UPSTREAM entry WAITING, the port free (R3). -/
def forwarded (s : State) (r : BusRequest) (access : Access) : State :=
  { s with
    port := none
    downBus := some r
    entries := s.entries ++ [{ owner := .upstream, access := access, isLocal := false, result := none }] }

/-- A state after a request is completed by the part itself: in its turn behind older upstream requests, or at once
(R3, R8, R10). -/
def completedHere (s : State) (access : Access) (c : Completion) : State :=
  if s.upstreamEntries = 0 then { s with port := none, upBus := some c }
  else
    { s with
      port := none
      entries := s.entries ++ [{ owner := .upstream, access := access, isLocal := true, result := some c }] }

/-- The byte a number makes. -/
def byte (n : Nat) : Byte := BitVec.ofNat 8 n

/-- The desk number of the guide in a command's target byte. -/
def TargetDesk (w : CommandWord) (d : DeskId) : Prop := w.target.toNat = d.val + 1

/-- The entries locked in RUN (Table 2-9). -/
def LockedInRun (s : State) : EntryId → Prop
  | .general n => n = 0 ∨ n = 2 ∨ n = 3
  | .window w => (s.window w).enabled = true ∨ (s.window w).stories ≠ []
  | .trunk t => (s.trunk t).bringUp.state ≠ .down
  | .desk d => (s.desk d).isOpen = true
  | .agency _ => False
  | .phrase _ => False
  | .codeWord _ _ => False
  | .convWord _ => False

/-- An address lies in a range of a base and a length. -/
def Within (x base length : Nat) : Prop := base ≤ x ∧ x < base + length

/-- The value of a setup byte. -/
def setupByte (m : List Host.Cell) (off : Nat) : Nat := (Shadow.read m off).toNat

/-- The fields of a trunk entry are legal (Table 2-4). -/
def TrunkLegal (m : List Host.Cell) (t : TrunkId) : Prop :=
  (1 ≤ setupByte m (0xC0 + 0x20 * t.val + 16) ∧ setupByte m (0xC0 + 0x20 * t.val + 16) ≤ 15) ∧
  setupByte m (0xC0 + 0x20 * t.val + 17) ≤ 3 ∧ setupByte m (0xC0 + 0x20 * t.val + 18) ≤ 31 ∧
  setupByte m (0xC0 + 0x20 * t.val + 19) ≤ 3 ∧ setupByte m (0xC0 + 0x20 * t.val + 20) ≤ 15 ∧
  ∀ k, 1 ≤ k → k ≤ setupByte m (0xC0 + 0x20 * t.val + 16) → Setup.slotDesk m t k ≤ 24

/-- The slot maps name a desk twice, spare slots apart (R28). -/
def MappedTwice (m : List Host.Cell) : Prop :=
  ∃ (x y : TrunkId) (k l : Nat), 1 ≤ k ∧ k ≤ Setup.slotCount m x ∧ 1 ≤ l ∧ l ≤ Setup.slotCount m y ∧
    Setup.slotDesk m x k ≠ 0 ∧ Setup.slotDesk m x k = Setup.slotDesk m y l ∧ ¬ (x = y ∧ k = l)

/-- The fields of a window entry are legal (Table 2-3, R26). -/
def WindowLegal (m : List Host.Cell) (w : WindowId) : Prop :=
  Setup.windowBase m w < 2 ^ 28 ∧ setupByte m (0x40 + 0x10 * w.val + 8) ≤ 8 ∧ setupByte m (0x40 + 0x10 * w.val + 9) ≤ 15 ∧
  (setupByte m (0x40 + 0x10 * w.val + 10) ≤ 3 ∨ setupByte m (0x40 + 0x10 * w.val + 10) = 255) ∧
  setupByte m (0x40 + 0x10 * w.val + 11) ≤ 7

/-- The bytes of a window by its size code (Table 2-3). -/
def windowBytes (m : List Host.Cell) (w : WindowId) : Nat := 4096 * 2 ^ setupByte m (0x40 + 0x10 * w.val + 8)

/-- The base of a window is a multiple of its size (R26). -/
def WindowAligned (m : List Host.Cell) (w : WindowId) : Prop := Setup.windowBase m w % windowBytes m w = 0

/-- What a line drives, by its flag, its active level and its drive (R192). -/
def driven (flag activeLow openDrain : Bool) : Drive :=
  match flag, activeLow, openDrain with
  | true, false, _ => .high
  | true, true, _ => .low
  | false, _, true => .released
  | false, false, false => .low
  | false, true, false => .high

/-- The bytes of the report ring by its size code (Table 2-2). -/
def ringBytes (m : List Host.Cell) : Nat := 256 * 2 ^ (setupByte m 4 - 1)

/-- The fields of general word 0 are legal (Table 2-2, R26; log entry 16). -/
def RingLegal (m : List Host.Cell) : Prop := Setup.ringBase m < 2 ^ 28 ∧ setupByte m 4 ≤ 7

/-- The base of the report ring, if there is one, is a multiple of its size (R26). -/
def RingAligned (m : List Host.Cell) : Prop := setupByte m 4 ≠ 0 → Setup.ringBase m % ringBytes m = 0

/-- A window shares no address with the control page, the report ring or another set-up window (R27). -/
def WindowApart (s : State) (m : List Host.Cell) (w : WindowId) : Prop :=
  ∀ x, Within x (Setup.windowBase m w) (windowBytes m w) →
    ¬ Within x (4096 * s.straps.toNat) 4096 ∧
    (setupByte m 4 ≠ 0 → ¬ Within x (Setup.ringBase m) (ringBytes m)) ∧
    ∀ y, y ≠ w → (s.window y).setUp = true → ¬ Within x (Setup.windowBase m y) (Setup.windowSize m y)

/-- The report ring, if there is one, shares no address with the control page or a set-up window (R27). -/
def RingApart (s : State) (m : List Host.Cell) : Prop :=
  setupByte m 4 ≠ 0 → ∀ x, Within x (Setup.ringBase m) (ringBytes m) →
    ¬ Within x (4096 * s.straps.toNat) 4096 ∧
    ∀ y, (s.window y).setUp = true → ¬ Within x (Setup.windowBase m y) (Setup.windowSize m y)

/-- How far one ring index lies forward of another, counted circularly in a ring of `n` records. -/
def forward (n a b : Nat) : Nat := (b + n - a) % n

/-- The four conditions of R94. -/
def FlashWaits (s : State) (d : DeskId) : Prop :=
  (s.desk d).isOpen = true ∧ (s.desk d).held = false ∧ (s.desk d).saved = none ∧
    (∃ c, (s.desk d).context = some c ∧ c.kind = .story ∧ (s.story c.handle).cls ≠ .flash ∧
      (c.segment = .header ∨ c.segment = .text)) ∧
    ∃ e more, (s.desk d).queue = e :: more ∧ e.kind = .story ∧ e.cls = .flash

/-- A queue with an entry placed directly behind the last entry of equal or higher class, or at the head when there is
none; the others keep their order (R88). A class is higher when its code is lower (R87). -/
def Placed (e : DeskEntry) (before after : List DeskEntry) : Prop :=
  ∃ front back, before = front ++ back ∧ after = front ++ e :: back ∧ (∀ x ∈ back, e.cls.code < x.cls.code) ∧
    ∀ x, front.getLast? = some x → x.cls.code ≤ e.cls.code

/-- A state differs from another only in stories, windows, desks, the completion list, the report writer and the end of a
hold. -/
def OnlyStories (s t : State) : Prop :=
  t = { s with
    desks := t.desks, stories := t.stories, windows := t.windows, completion := t.completion, writer := t.writer
    hold := t.hold }

/-- The number of desks at which a story has a mark. -/
def marked (s : State) (h : HandleId) (m : Mark) : Nat :=
  (List.finRange 24).countP fun d => decide (s.markAt h d = m)

/-- The set of a trunk's desks. -/
def OnTrunk (s : State) (u : TrunkId) (d : DeskId) : Prop :=
  ∃ k, 1 ≤ k ∧ k ≤ s.slotCount u ∧ s.slotNumber u k = d.val + 1

/-- A record that names a story by its handle, with the generation and serial of its record (R188). -/
def naming (s : State) (kind : ReportKind) (subject : Byte) (h : HandleId) (detail : List Byte) : Record :=
  { kind := kind, subject := subject, handle := byte h.val, generation := (s.story h).generation,
    serial := (s.story h).serial, minute := s.clock.minute, detail := detail }

/-- A frame at its first symbol. -/
def firstSymbol (s : State) (u : TrunkId) (kind : FrameKind) : Framing :=
  { kind := kind, symbol := 1, unit := 1, pattern := 0b1110010, rate := s.rateClass u, timer := 0, stopping := false }

/-- A trunk's transmitter with its last symbol in progress (R144). -/
def finishing (f : Option Framing) : Option Framing := f.map fun g => { g with stopping := true }

/-- A receiver that measures afresh, or reads nothing, with its frame state cleared (R158; for SEARCH log entry 43). -/
def fresh (r : Receiver) (a : Machine.Alignment) (mismatch : Bool) : Receiver :=
  { r with
    alignment := a, mismatch := mismatch, measurement := none, lock := none, ref := none, missCount := 0
    switchWindow := 0 }

/-- A send context as an item's first segment makes it (R115). -/
def startOf (s : State) (d : DeskId) (h : HandleId) (kind : ItemKind) (segment : Segment) (layout : List Group) :
    SendContext :=
  { handle := h, kind := kind, segment := segment, layout := layout, openingDone := false, cursor := 0, lineStart := 0,
    columnLimit := s.columnLimit d, feedLines := s.feedLines d, underrunLatch := false }

/-! ### One period of LREF -/

/-- LREF periods of a unit at a rate class (Table 8-3). -/
def unitTime (rate : Nat) : Nat :=
  if rate = 0 then 80000 else if rate = 1 then 40000 else if rate = 2 then 20000 else 10000

/-- LREF periods of the settling time of a link timer select: 10, 50, 200 or 1000 ms (R180). -/
def settlingTime (select : Nat) : Nat :=
  if select = 0 then 480000 else if select = 1 then 2400000 else if select = 2 then 9600000 else 48000000

/-- Whether the sample of a receiver now due is an accepted transition (R155). -/
def transits (r : Receiver) : Bool := decide (r.rxd = r.lastSample) && decide (r.rxd ≠ r.accepted)

/-- Whether a unit is read in this period: its sample, at position 8, is due and re-times nothing (R155, R156). -/
def readsUnit (r : Receiver) : Bool := decide (r.sampleTimer = 0) && !transits r && decide (r.retimer = 8)

/-- Whether symbol boundaries stand (R156). -/
def inSymbols (r : Receiver) : Bool :=
  decide (r.alignment = .locking) || decide (r.alignment = .framed) || decide (r.alignment = .data)

/-- Whether the unit read in this period ends a symbol (R156). -/
def endsSymbol (r : Receiver) : Bool := readsUnit r && inSymbols r && decide ((r.unitCount + 1) % 7 = 0)

/-- The last 14 units once the unit of this period is read, the newest in bit 0, 1 for mark (R142, R156). -/
def unitsRead (r : Receiver) : BitVec 14 :=
  (r.units <<< 1) ||| (if r.accepted = .mark then 1 else 0)

/-- The measurement once the sample of this period is an accepted transition (R159). -/
def measured (r : Receiver) : Measurement :=
  match r.measurement with
  | none => ⟨0, 255⟩
  | some m => ⟨m.count + 1, min m.shortest (min 255 (r.run + 1))⟩

/-- A receiver after one period (R155 to R157, R159, R160). -/
def receiverAfter (rate : Nat) (r : Receiver) : Receiver :=
  if r.sampleTimer ≠ 0 then { r with sampleTimer := r.sampleTimer - 1 }
  else
    { r with
      sampleTimer := unitTime rate / 16 - 1
      lastSample := r.rxd
      accepted := if transits r then r.rxd else r.accepted
      run := if transits r then 0 else min 256 (r.run + 1)
      retimer := if transits r then 2 else r.retimer % 16 + 1
      measurement := if transits r ∧ r.alignment = .measuring then some (measured r) else r.measurement
      units := if readsUnit r then unitsRead r else r.units
      unitCount := if readsUnit r ∧ inSymbols r then (r.unitCount + 1) % 7 else r.unitCount
      lock := if endsSymbol r ∧ r.alignment = .locking then r.lock.map fun l => { l with offset := l.offset + 1 }
        else r.lock }

/-- A transmitter after one period (R143, R144, R147): the next unit, and within a bring-up frame the next symbol, once the
unit time has passed. The first unit of any other symbol or frame is sent by the step that begins it. -/
def transmitterAfter (f : Framing) : Framing :=
  if f.timer + 1 < unitTime f.rate then { f with timer := f.timer + 1 }
  else if f.unit < 7 then { f with timer := 0, unit := f.unit + 1 }
  else
    match f.kind with
    | .bringUp w =>
      if f.stopping = false ∧ f.symbol < 6 then
        { f with
          timer := 0, unit := 1, symbol := f.symbol + 1
          pattern := if f.symbol ≤ 1 then 0b1110010 else codePattern (w.extractLsb' (5 * (5 - f.symbol)) 5) }
      else { f with timer := 0 }
    | .data => { f with timer := 0 }

/-- A trunk after one period. -/
def trunkAfter (s : State) (u : TrunkId) : Trunk :=
  { transmitter := (s.trunk u).transmitter.map transmitterAfter
    receiver := receiverAfter (s.rateClass u) (s.trunk u).receiver
    bringUp :=
      { (s.trunk u).bringUp with
        linkTimer := (s.trunk u).bringUp.linkTimer.map (· + 1)
        limitTimer := (s.trunk u).bringUp.limitTimer.map (· + 1) } }

/-- The steps that the sample of a receiver makes due (R157, R159, R160, R162). Which row reads a symbol is the model's
division of them (log entry 21). -/
def receiverDue (s : State) (u : TrunkId) : List Instr :=
  let r := (s.trunk u).receiver
  let now := decide (r.sampleTimer = 0)
  (if now && !transits r && decide (r.run = 255) && decide (r.accepted = .space) && !r.inBreak then [.breakStart u]
    else []) ++
  (if now && !transits r && decide (r.run = 255) && decide (r.accepted = .mark) && r.inBreak then [.breakEnd u] else []) ++
  (if now && transits r && decide (r.alignment = .measuring) && r.measurement.isSome &&
      decide ((measured r).count = 64) then
    [.measurementComplete u (measured r).shortest]
  else []) ++
  (if readsUnit r && decide (r.alignment = .seeking) && decide (unitsRead r = 0b11100101110010) then
    [.framePairFound u true]
  else []) ++
  (match r.lock with
    | some l =>
      if endsSymbol r ∧ r.alignment = .locking ∧ l.offset = 5 ∧ (unitsRead r).truncate 7 ≠ 0b1110010#7 then
        [.framePairFound u false]
      else if endsSymbol r ∧ r.alignment = .locking ∧ l.offset = 6 then
        [.framePairFound u (decide ((unitsRead r).truncate 7 = 0b1110010#7))]
      else []
    | none => []) ++
  if endsSymbol r ∧ r.alignment ≠ .locking then s.symbolEvent u ((unitsRead r).truncate 7) else []

/-- The steps that a trunk's timers make due (R180, R184; log entry 36). -/
def timersDue (s : State) (u : TrunkId) : List Instr :=
  (match (s.trunk u).bringUp.limitTimer with
    | some n => if s.bringUpLimit u * 48000000 ≤ n + 1 then [.bringUpLimitExpiry u] else []
    | none => []) ++
  match (s.trunk u).bringUp.linkTimer with
    | some n => if settlingTime (s.linkSelect u) ≤ n + 1 then [.linkTimerExpiry u] else []
    | none => []

/-- The step that the end of a transmitter's symbol makes due: the return to mark, the next slot or the next frame (R144,
R146 to R148). -/
def symbolDue (s : State) (u : TrunkId) : List Instr :=
  match (s.trunk u).transmitter with
  | none => []
  | some f =>
    if f.timer + 1 < unitTime f.rate ∨ f.unit < 7 then []
    else if f.stopping then [.transmitterEntersMark u]
    else
      match f.kind with
      | .bringUp _ => if f.symbol < 6 then [] else [.frameStart u]
      | .data => if f.symbol ≤ s.slotCount u then [.slotStart u] else [.frameStart u]

/-- The steps that the hold timer and the MINUTE sample make due (R13, R194). -/
def clockDue (s : State) : List Instr :=
  (match s.hold with
    | some h => if 48 * h.limit ≤ h.elapsed + 1 then [.holdTimerExpiry] else []
    | none => []) ++
  if 48 ≤ s.clock.lref + 1 ∧ s.clock.lastSample = some s.clock.pin ∧ s.clock.accepted = some (!s.clock.pin) ∧
      (s.edgeSelect = 3 ∨ s.edgeSelect = if s.clock.pin then 1 else 2) then
    [.minuteAdvance (if s.clock.pin then .rising else .falling)]
  else []

/-- The clock after one period: a sample of MINUTE ends each microsecond (R194). -/
def clockAfter (c : Clock) : Clock :=
  if c.lref + 1 < 48 then { c with lref := c.lref + 1 }
  else
    { c with
      lref := 0, lastSample := some c.pin
      accepted := if c.lastSample = some c.pin then some c.pin else c.accepted }

/-! ### Resets, grants and the minute -/

/-- The setup byte at a page offset after a hard reset (Table 2-2, R34): yield count, hold limit, fetch limit and the six
shift codes; every other byte is 0. -/
def setupAtReset (off : Nat) : Byte :=
  if off = 0x10 then 8 else if off = 0x11 then 64 else if off = 0x12 then 4
  else if off = 0x18 then 31 else if off = 0x19 then 27 else if off = 0x1A then 8 else if off = 0x1B then 2
  else if off = 0x1C then 4 else if off = 0x1D then 11 else 0

/-- A text block holds a text offset (R130): the offset lies in an extent, the block is the aligned 32-byte block of its
address, and its valid offsets are those of the extent in that block. -/
def HoldsOffset (r : Story) (o : Nat) (b : TextBlock) : Prop :=
  ∃ before e after, r.extents = before ++ e :: after ∧
    ∃ base a : Nat, base = (before.map Extent.length).sum ∧ base ≤ o ∧ o < base + e.length ∧
      a = (e.start + BitVec.ofNat 28 (o - base)).toNat ∧
      b.address.toNat = 32 * (a / 32) ∧ b.first = max base (o - a % 32) ∧
      b.last = min (base + e.length - 1) (o + (31 - a % 32))

/-- The text offset at which the next text block of a desk begins to be sought: behind the staged block at the highest
offsets, or at the text cursor when both are EMPTY (R131). -/
def nextOffset (k : Desk) (cursor : Nat) : Nat :=
  match k.staging0.block, k.staging1.block with
  | none, none => cursor
  | some x, none => x.last + 1
  | none, some y => y.last + 1
  | some x, some y => max x.last y.last + 1

/-- A desk is eligible for the read of a text block: it is in TEXT, a staging block is EMPTY, and the block is its next one
(R131, R132). -/
def Eligible (s : State) (d : DeskId) (b : TextBlock) : Prop :=
  ∃ c, (s.desk d).context = some c ∧ c.segment = .text ∧
    ((s.desk d).staging0 = .empty ∨ (s.desk d).staging1 = .empty) ∧
    nextOffset (s.desk d) c.cursor < (s.story c.handle).textCount ∧
    HoldsOffset (s.story c.handle) (nextOffset (s.desk d) c.cursor) b

/-- A desk is the first eligible one after the round-robin pointer, the pointer itself searched last (R133). -/
def ServedNext (s : State) (d : DeskId) (b : TextBlock) : Prop :=
  Eligible s d b ∧ ∃ i < 24, d.val = (s.fetchPointer.val + 1 + i) % 24 ∧
    ∀ j < i, ∀ e : DeskId, e.val = (s.fetchPointer.val + 1 + j) % 24 → ∀ b', ¬ Eligible s e b'

/-- The 16 bytes of a report record (Table 11-2). -/
def recordBytes (r : Record) (missed : Nat) : List Byte :=
  [byte r.kind.code, r.subject, r.handle, r.generation, byte r.serial, byte (r.serial / 256), byte r.minute,
    byte (r.minute / 256), byte missed] ++ (r.detail ++ [0, 0, 0, 0, 0, 0, 0]).take 7

/-- The release of one story by an advance to a minute, if it is still HELD for it (R66). -/
def releaseFor (m : Nat) (s : State) (h : HandleId) : State :=
  if (s.story h).state = .held ∧ (s.story h).embargo = some m then
    (s.report (naming s .embargoRelease (byte (s.story h).window.val) h [])).releaseStory h
  else s

/-! ### The copy of a page write -/

/-- The page offset of an entry's first word and the number of its words (Table 2-1). -/
def entryPlace : EntryId → Nat × Nat
  | .general n => (8 * n.val, 1)
  | .window w => (0x40 + 0x10 * w.val, 2)
  | .trunk t => (0xC0 + 0x20 * t.val, 4)
  | .desk d => (0x140 + 0x10 * d.val, 2)
  | .agency a => (0x2C0 + 0x10 * a.val, 2)
  | .phrase p => (0x3C0 + 0x20 * p.val, 4)
  | .codeWord p k => (0x600 + 0x100 * p.val + 8 * k.val, 1)
  | .convWord k => (0xA00 + 8 * k.val, 1)

/-- A byte of a beat, 0 when the beat does not enable it (R22). -/
def enabledByte (b : Beat) (k : Nat) : Byte := if b.enables.getLsbD k then b.data.extractLsb' (8 * k) 8 else 0

/-- The enabled bytes of a beat at a page offset. -/
def beatCells (off : Nat) (b : Beat) : List Host.Cell :=
  ([0, 1, 2, 3, 4, 5, 6, 7].filter fun k => b.enables.getLsbD k).map fun k => (off + k, b.data.extractLsb' (8 * k) 8)

/-- The staged bytes of an entry: those of the stage when it belongs to the entry (R23). -/
def stagedOf (stage : Option Stage) (e : EntryId) : List Host.Cell :=
  match stage with
  | some g => if g.entry = e then g.cells else []
  | none => []

/-- Whether the stage belongs to an entry and holds a byte of each of its earlier words (R23). -/
def allStaged (stage : Option Stage) (e : EntryId) : Prop :=
  ∃ g, stage = some g ∧ g.entry = e ∧
    ∀ i, i + 1 < (entryPlace e).2 → ∃ c ∈ g.cells, (c.1 - (entryPlace e).1) / 8 = i

/-- What the control unit makes of one word of a page write at a page offset, from a stage: the stage and the action after
it (R21 to R23). -/
def WordCopied (stage : Option Stage) (off : Nat) (b : Beat) (x : Copied) : Prop :=
  (b.enables = 0 → x = ⟨stage, []⟩) ∧
  (off = 0xE00 → x = ⟨stage, if b.enables.getLsbD 0 then
    [.command
      { code := enabledByte b 0, target := enabledByte b 1, handle := enabledByte b 2, generation := enabledByte b 3
        value := enabledByte b 7 ++ enabledByte b 6 ++ enabledByte b 5 ++ enabledByte b 4 }] else []⟩) ∧
  (off = 0xE08 → x = ⟨stage, if b.enables.getLsbD 0 ∨ b.enables.getLsbD 1 then
    [.consumed ((enabledByte b 0).toNat + 256 * (enabledByte b 1).toNat)] else []⟩) ∧
  (off ≠ 0xE00 → off ≠ 0xE08 → (∀ e i, i < (entryPlace e).2 → off ≠ (entryPlace e).1 + 8 * i) → x = ⟨stage, []⟩) ∧
  ∀ e i, b.enables ≠ 0 → i < (entryPlace e).2 → off = (entryPlace e).1 + 8 * i →
    ((entryPlace e).2 = 1 → x = ⟨stage, [.commit e true (beatCells off b)]⟩) ∧
    (i + 1 < (entryPlace e).2 → x.actions = [] ∧ ∃ g, x.stage = some g ∧ g.entry = e ∧
      ∀ k, Cells.find k g.cells =
        match Cells.find k (beatCells off b) with
        | some c => some c
        | none => Cells.find k (stagedOf stage e)) ∧
    (1 < (entryPlace e).2 → i + 1 = (entryPlace e).2 →
      ∃ staged : Bool, (staged = true ↔ allStaged stage e) ∧
        x = ⟨none, [.commit e staged (stagedOf stage e ++ beatCells off b)]⟩)

/-! ### Composition -/

/-- A notice is left out whole: its phrase is empty, and for RESUME phrase 10 too (R114). -/
def LeftOut (s : State) (k : NoticeKind) : Prop := s.phrase k.phrase = [] ∧ (k = .resume → s.phrase 10 = [])

/-- The send context of an item that has come to its text at an offset: TEXT from there, or TRAILER when the offset is the
text count (R111). -/
def atText (s : State) (d : DeskId) (c : SendContext) (o : Nat) (openingDone : Bool) : SendContext :=
  if o < (s.story c.handle).textCount then
    { c with segment := .text, layout := [], cursor := o, lineStart := o, openingDone := openingDone }
  else
    { c with
      segment := .trailer, layout := s.trailerLayout d c false, cursor := o, lineStart := o, openingDone := true }

/-- The send context with which an item goes on at a continuation (R111 to R116, R125): a segment with its groups and its
opening still to come, or a notice, which when left out passes to its own continuation. None when the item ends. -/
def goesOn (s : State) (d : DeskId) (c : SendContext) : Continuation → SendContext → Prop
  | .finish, _ => False
  | .header, x => x =
    { c with segment := .header, layout := s.headerLayout c.handle, openingDone := false, cursor := 0, lineStart := 0 }
  | .text o, x => x = atText s d c o false
  | .trailer, x => x =
    { c with segment := .trailer, layout := s.trailerLayout d c true, openingDone := false }
  | .notice k h next, x =>
    (LeftOut s k → goesOn s d c next x) ∧
    (¬ LeftOut s k → x = { c with segment := .notice k h next, layout := s.noticeLayout k h, openingDone := false })

/-- An item ends at a continuation: it is END, after no notice but those left out (R114, R117). -/
def endsAt (s : State) : Continuation → Prop
  | .finish => True
  | .notice k _ next => LeftOut s k ∧ endsAt s next
  | .header => False
  | .text _ => False
  | .trailer => False

/-- A code that occupies a column (R109): the shift code that the case needs, then the code, on a new line when the column is
at its limit. -/
def printed (s : State) (limit : Nat) (p : PrintState) (shift : Shift) (code : FiveUnit) : GroupCodes :=
  let change := if shift = p.shift then [] else if shift = .letters then [s.codeLtrs] else [s.codeFigs]
  if p.column = limit then ⟨s.codeCr :: s.codeLf :: change ++ [code], ⟨shift, 1⟩, true⟩
  else ⟨change ++ [code], ⟨shift, p.column + 1⟩, false⟩

/-- The codes of a group, with the case and column it leaves (R107, R109, R110): a character by the shift class of its
conversion entry, DROP, LETTERS, FIGURES or EITHER. -/
def converted (s : State) (limit : Nat) (p : PrintState) : Group → GroupCodes
  | .opening =>
    if p.column = 0 then ⟨[s.codeLtrs], ⟨.letters, 0⟩, false⟩
    else ⟨[s.codeCr, s.codeLf, s.codeLtrs], ⟨.letters, 0⟩, false⟩
  | .bell =>
    if p.shift = .letters then ⟨[s.codeFigs, s.codeBell], ⟨.figures, p.column⟩, false⟩
    else ⟨[s.codeBell], ⟨.figures, p.column⟩, false⟩
  | .space => printed s limit p p.shift s.codeSpace
  | .lineEnd => ⟨[s.codeCr, s.codeLf], ⟨p.shift, 0⟩, false⟩
  | .feed => ⟨[s.codeLf], p, false⟩
  | .char b =>
    let code := BitVec.ofNat 5 ((s.conversion b).toNat % 32)
    let shiftClass := (s.conversion b).toNat / 32 % 4
    if shiftClass = 0 then ⟨[], p, false⟩
    else if shiftClass = 1 then printed s limit p .letters code
    else if shiftClass = 2 then printed s limit p .figures code
    else printed s limit p p.shift code

/-- A desk with a group's codes placed in its buffer, none tagged (R107, R108). -/
def placed (k : Desk) (g : GroupCodes) : Desk :=
  { k with
    buffer := k.buffer ++ g.codes.map fun x => ⟨x, false⟩
    shift := g.print.shift, column := g.print.column }

/-- STORY_DONE of a story with a final state: the numbers of its marks DONE, CUT and DROPPED (R78, R79, R188). -/
def doneRecord (s : State) (h : HandleId) (final : Nat) : Record :=
  naming s .storyDone (byte (s.story h).window.val) h
    [byte final, byte (marked s h .done), byte (marked s h .cut), byte (marked s h .dropped)]

/-- A story leaves its window story list, and a TABLE_FULL hold clears (R51, R78, R79). -/
def offWindow (s : State) (h : HandleId) : State :=
  { s.onWindow (s.story h).window fun k => { k with stories := k.stories.erase h } with
    hold := match s.hold with
      | some ⟨.tableFull _ _, _, _⟩ => none
      | x => x }

/-- What the story table makes of a story that has lost a holder or changed a mark (R78, R79). LIVE with no mark QUEUED or
ACTIVE and no holder it becomes SPENT (4); KILLED (5) or SUPERSEDED (6) without a holder it becomes FREE, its generation kept
(its window, agency and origin 0: log entry 33). STORY_DONE is reported of either; any other story stands. -/
def settled (s : State) (h : HandleId) : State :=
  let r := s.story h
  if r.state = .live ∧ marked s h .queued = 0 ∧ marked s h .active = 0 ∧ r.holders = 0 then
    (offWindow (s.onStory h fun r => { r with state := .spent }) h).report (doneRecord s h 4)
  else if (r.state = .killed ∨ r.state = .superseded) ∧ r.holders = 0 then
    (({ offWindow s h with completion := s.completion.erase h } : State).onStory h fun r =>
      { generation := r.generation }).report (doneRecord s h (if r.state = .killed then 5 else 6))
  else s

/-- An item of a story ends at a desk: its holder is released, the send context is gone, and the story table settles the story
(R117). -/
def ended (s : State) (d : DeskId) (h : HandleId) : State :=
  settled ((s.onStory h fun r => { r with holders := r.holders - 1 }).onDesk d fun k => { k with context := none }) h

/-- The older of a desk's REQUESTED staging blocks, the one at the lower offsets: block 1 when `second`, otherwise block 0
(R135). -/
def OlderRequested (k : Desk) (second : Bool) (b : TextBlock) : Prop :=
  if second then k.staging1 = .requested b ∧ ∀ c, k.staging0 = .requested c → b.first < c.first
  else k.staging0 = .requested b ∧ ∀ c, k.staging1 = .requested c → b.first ≤ c.first

/-! ### The frame tracker and bring-up -/

/-- A trunk that has entered SEARCH from another state than UP, its line not in break (R158, R173, R178 to R180). -/
def searching (s : State) (u : TrunkId) : State := s.onTrunk u fun k =>
  { k with
    receiver := fresh k.receiver .measuring false
    bringUp := { k.bringUp with state := .search, received := none, page := none, linkTimer := none } }

/-- A trunk that was UP has been lost, its line not in break (R164, R165, R181, R186): TRUNK_LOST with a reason and the
switch-window count, SEARCH with its limit timer, and LINE for its desks, FAR_STOP gone. -/
def LostFrom (s : State) (u : TrunkId) (reason window : Nat) (t : State) : Prop :=
  t = { ((searching s u).onBringUp u fun b =>
          { b with limitTimer := if s.bringUpLimit u = 0 then none else some 0 }).report
          (plain s .trunkLost (byte u.val) [byte reason, byte window]) with
        desks := t.desks } ∧
  (∀ d, OnTrunk s u d → t.desk d = { s.desk d with line := true, farStop := false }) ∧
  ∀ d, ¬ OnTrunk s u d → t.desk d = s.desk d

/-- The offsets after a reference at which the next frame may start, both spacings accepted or not (R162). -/
def MayStart (n : Nat) (both : Prop) (kind : RefKind) (o : Nat) : Prop :=
  match kind with
  | .bringUp => o = 6
  | .data => o = n + 1 ∨ (both ∧ o = 6)
  | .pending => False

/-- Both frame spacings are accepted: in FRAMED, and in DATA while the switch-window count is above 0 (R162, R164). -/
def BothSpacings (r : Receiver) : Prop := r.alignment = .framed ∨ (r.alignment = .data ∧ 0 < r.switchWindow)

/-- The switch-window count once a frame is settled (R164). -/
def windowAfter (r : Receiver) : Nat := if r.alignment = .data then r.switchWindow - 1 else r.switchWindow

/-- The frame reference after a missing frame: the last position reached by whole frames of its kind (R162). -/
def missedRef (n : Nat) (f : FrameRef) : FrameRef :=
  { kind := f.kind, offset := (f.offset + 1) % (if f.kind = .bringUp then 6 else n + 1), accepted := false
    slotsRead := false, afterBringUp := false, values := [], withheld := false }

/-- The symbol at an offset is read for code errors only (R162, R166): it settles no kind, starts and misses no frame, and is
neither a return slot that is read nor a word symbol. -/
def ReadPlainly (r : Receiver) (f : FrameRef) (n o : Nat) (sym : Pattern) : Prop :=
  f.kind ≠ .pending ∧
    (MayStart n (BothSpacings r) f.kind o →
      sym ≠ 0b1110010 ∧ ∃ x, MayStart n (BothSpacings r) f.kind x ∧ o < x) ∧
    ¬ (r.alignment = .data ∧ f.kind = .data ∧ f.slotsRead = true ∧ o ≤ n) ∧
    ¬ (r.alignment = .framed ∧ f.kind = .bringUp ∧ f.accepted = true ∧ 2 ≤ o ∧ o ≤ 5)

/-- A desk whose far printer sends a symbol in its return slot (R168). -/
def hears (sym : Pattern) (k : Desk) : Desk :=
  { k with farStop := if sym = 0b1111000 then true else if sym = 0b1110100 then false else k.farStop }

/-! ### Restore -/

/-- Where a restore restarts an item (R125): its segment from the beginning, TEXT at the line start, a notice with its own
continuation; an interrupted RESTORED notice hands on its own. -/
def restartOf (c : SendContext) : Continuation :=
  match c.segment with
  | .header => .header
  | .text => .text c.lineStart
  | .trailer => .trailer
  | .notice k h next => if k = .restored then next else .notice k h next

/-- A desk of a trunk that has entered UP (R125, R186). Without LINE it stands. With it LINE goes, and a current item is
restored: buffer and staging emptied, the epoch raised, a line end (log entry 37), then a RESTORED notice before the restart
point, or that at once when phrase 8 is empty; where nothing is left to send the item ends (log entry 26). -/
def Restored (d : DeskId) (s t : State) : Prop :=
  match (s.desk d).line, (s.desk d).context with
  | false, _ => t = s
  | true, none => t = s.onDesk d fun k => { k with line := false }
  | true, some c => ∃ cut : State,
    (cut = s.onDesk d fun k =>
      { k with
        line := false, buffer := [⟨s.codeCr, false⟩, ⟨s.codeLf, false⟩], column := 0, epoch := k.epoch + 1
        staging0 := .empty, staging1 := .empty }) ∧
    (∀ y, goesOn cut d { c with cursor := if c.segment = .text then c.lineStart else c.cursor }
        (.notice .restored c.handle (restartOf c)) y → t = cut.onDesk d fun k => { k with context := some y }) ∧
    (endsAt cut (.notice .restored c.handle (restartOf c)) → t = ended cut d c.handle)

/-- Desks restored one after another, each in the state that the one before it leaves (R186). -/
def RestoredAll : List DeskId → State → State → Prop
  | [], s, t => t = s
  | d :: more, s, t => ∃ u, Restored d s u ∧ RestoredAll more u t

/-- The desks of a trunk in ascending slot order (R186). -/
def desksInOrder (s : State) (u : TrunkId) : List DeskId :=
  (List.range (s.slotCount u)).filterMap fun k => s.slotDesk u (k + 1)

/-! ### Intake -/

/-- A write that an ENABLED window's parser takes now (R4 step 4, R36): its enabled bytes, translated, are `bytes`. -/
def IntakeTaken (s : State) (w : WindowId) (a : Addr) (beats : List Beat) (bytes : List (Addr × Byte)) : Prop :=
  InForm a beats.length ∧ TakenNow s (.write a beats) ∧ enabledBytes a beats ≠ [] ∧
    s.touchedWindow (enabledBytes a beats) = none ∧ s.inPage a = false ∧ s.enabledWindow a = some w ∧
    enabledBytes a (beats.map (s.translateBeat w)) = bytes

/-- A state after the write is forwarded with its bytes translated, the intake position past it, and the flag and room tests
made (R36, R38, R52, R94). -/
def takenIn (s : State) (w : WindowId) (a : Addr) (beats : List Beat) (after : Addr) (u : State) : State :=
  ((forwarded (u.onWindow w fun k => { k with intake := after })
    (.write a (beats.map (s.translateBeat w))) .write).testFlags).testRooms

/-- The OPEN story of a window abandoned with a reason code (R46, R63): STORY_ABANDONED with the origin, its record FREE and
off every list, what the parser gathered dropped, and the parser in a state. -/
def abandoned (s : State) (w : WindowId) (h : HandleId) (reason : Nat) (parse : ParseState) : State :=
  ((({ s with completion := s.completion.erase h } : State).report
    (naming s .storyAbandoned (byte w.val) h (byte reason :: leBytes 4 (s.story h).origin.toNat))).onStory h fun r =>
      { generation := r.generation }).onWindow w fun k =>
        { k with parse := parse, stories := k.stories.erase h, lead := [], textCount := 0, extents := [] }

/-- A story opened in a window by a START byte, in the record given (R41, R62). -/
def opened (s : State) (w : WindowId) (g : HandleId) (at_ : Addr) : State :=
  (({ s with completion := s.completion.erase g } : State).onStory g fun r =>
    { generation := r.generation + 1, state := .opened, window := w, agency := s.windowAgency w, origin := at_ }).onWindow
    w fun k => { k with stories := k.stories ++ [g], parse := .lead, lead := [], textCount := 0, extents := [] }

/-- The letter of a class in a lead: F, B, U, R, D (Table 3-4). -/
def classLetter : StoryClass → Byte
  | .flash => 0x46
  | .bulletin => 0x42
  | .urgent => 0x55
  | .routine => 0x52
  | .deferred => 0x44

/-- The letter of a mode in a lead: N, W, K (Table 3-4). -/
def modeLetter : StoryMode → Byte
  | .new => 0x4E
  | .writeThru => 0x57
  | .kill => 0x4B

/-- The reason code of a lead that fails its check (Table 3-5). -/
def leadReason : AbandonReason → Nat
  | .badSerial => 1
  | .badClass => 2
  | .badDesk => 3
  | .badSlug => 4
  | .badMode => 5
  | .badReference => 6
  | .badEmbargo => 7
  | _ => 8

/-- The completion of a story (R64): text count and extents recorded, in the completion list, HELD for another minute, or
LIVE and released; STORY_IN first. -/
def completed (s : State) (h : HandleId) (count : Nat) (extents : List Extent) : State :=
  let held := (s.story h).embargo ≠ none ∧ (s.story h).embargo ≠ some s.clock.minute
  let u := ({ s with completion := s.completion ++ [h] } : State).onStory h fun r =>
    { r with textCount := count, extents := extents, state := if held then .held else r.state }
  let v := u.report
    { kind := .storyIn, subject := byte (s.story h).window.val, handle := byte h.val
      generation := (s.story h).generation, serial := (s.story h).serial
      minute := (s.story h).embargo.getD 0xFFFF
      detail := [byte (s.story h).cls.code, byte (s.story h).mode.code, if held then 1 else 0] }
  if held then v else v.releaseStory h

/-- A byte read between two stories (R40, R41): START opens one, END returns SKIP to HUNT, any other does nothing. -/
def WaitRead (w : WindowId) (s : State) (b : Addr) (v : Byte) (t : State) : Prop :=
  if v = 0x01 then ∃ g, s.entryToGive = some g ∧ t = opened s w g b
  else t = if v = 0x03 then s.onWindow w fun k => { k with parse := .hunt } else s

/-- A START read in the lead or text of a story (R41, R42, R45): it is abandoned and another one opened. -/
def StartsAgain (w : WindowId) (s : State) (b : Addr) (h : HandleId) (reason : Nat) (t : State) : Prop :=
  ∃ g, (abandoned s w h reason .lead).entryToGive = some g ∧ t = opened (abandoned s w h reason .lead) w g b

/-- A byte read in the lead of the story `h` (R42 to R44). -/
def LeadRead (w : WindowId) (s : State) (b : Addr) (v : Byte) (h : HandleId) (t : State) : Prop :=
  if v = 0x01 then StartsAgain w s b h 10 t
  else if v = 0x02 then
    match checkLead (s.window w).lead with
    | .error reason => t = abandoned s w h (leadReason reason) .skip
    | .ok f => t = (s.onStory h fun r =>
        { r with
          serial := f.serial, cls := f.cls, selector := f.selector, slug := f.slug, mode := f.mode
          refSerial := f.reference, embargo := f.embargo }).onWindow w fun k =>
        { k with parse := .text, textCount := 0, extents := [⟨s.nextInWindow w b, 0⟩] }
  else if v = 0x03 then t = abandoned s w h 11 .hunt
  else if (s.window w).lead.length < 96 then t = s.onWindow w fun k => { k with lead := k.lead ++ [v] }
  else t = abandoned s w h 9 .hunt

/-- A byte read in the text of the story `h` (R45, R64). -/
def TextRead (w : WindowId) (s : State) (b : Addr) (v : Byte) (h : HandleId) (t : State) : Prop :=
  if v = 0x01 then StartsAgain w s b h 12 t
  else if v = 0x03 then t = (completed s h (s.window w).textCount (s.window w).extents).onWindow w fun k =>
    { k with parse := .hunt, lead := [], textCount := 0, extents := [] }
  else if 65535 ≤ (s.window w).textCount then t = abandoned s w h 13 .skip
  else ∃ front e, (s.window w).extents = front ++ [e] ∧ t = s.onWindow w fun k =>
    { k with
      textCount := k.textCount + 1
      extents := if b = e.start + BitVec.ofNat 28 e.length then front ++ [⟨e.start, e.length + 1⟩]
        else front ++ [e, ⟨b, 1⟩] }

/-- A byte of a write in sequence, read in the parse state that stands; in LEAD and TEXT the window has its OPEN story (R40 to
R45, Table 3-3). -/
def ByteRead (w : WindowId) (s : State) (b : Addr) (v : Byte) (t : State) : Prop :=
  match (s.window w).parse with
  | .hunt => WaitRead w s b v t
  | .skip => WaitRead w s b v t
  | .lead => ∃ h, s.openStory w = some h ∧ (s.story h).window = w ∧ LeadRead w s b v h t
  | .text => ∃ h, s.openStory w = some h ∧ (s.story h).window = w ∧ TextRead w s b v h t

/-- Bytes read one after another, each in the state that the one before it leaves (R38 step 5). -/
def BytesRead (w : WindowId) : List (Addr × Byte) → State → State → Prop
  | [], s, t => t = s
  | (b, v) :: rest, s, t => ∃ u, ByteRead w s b v u ∧ BytesRead w rest u t

/-! ### Snapshot images -/

/-- The value of a bit. -/
def bit (b : Bool) : Nat := if b then 1 else 0

/-- The byte of a handle, FFh for none. -/
def imageHandle : Option HandleId → Byte
  | some h => byte h.val
  | none => 0xFF

/-- A set of desks in three bytes, bit d - 1 for desk d. -/
def imageDesks (p : DeskId → Bool) : List Byte :=
  leBytes 3 (((List.finRange 24).map fun d => bit (p d) * 2 ^ d.val).sum)

/-- Offsets 00h to 1Fh of the general image (Table 11-4). -/
def generalImage (s : State) : List Byte :=
  [(0x18 : Byte), 0x04, 1, if s.mode = .run then 1 else 0] ++ leBytes 2 s.clock.minute ++
  [byte s.edgeSelect, byte (bit s.writer.alert + 2 * bit s.writer.notice + 4 * bit s.writer.storeFault)] ++
  leBytes 2 s.writer.writeIndex ++ leBytes 2 s.writer.consumed ++
  [byte s.writer.missed, byte s.writer.queue.length, byte (s.fetchPointer.val + 1),
    match s.hold with
    | none => 0
    | some ⟨.tableFull _ _, _, _⟩ => 1
    | some ⟨.ringFull _, _, _⟩ => 2
    | some ⟨.fifoFull, _, _⟩ => 3,
    byte (s.entries.countP fun e => decide (e.owner = .upstream)),
    byte (s.entries.countP fun e => decide (e.owner ≠ .upstream)),
    byte (s.entries.countP fun e => match e.owner with
      | .fetch _ _ => true
      | _ => false),
    byte s.fifo.length, byte ((List.finRange 128).countP fun h => decide ((s.story h).state ≠ .free)),
    byte s.completion.length, byte (s.completion.countP fun h => decide ((s.story h).state = .spent))] ++
  List.replicate 9 0

/-- The 16 bytes of a window (Table 11-4; log entry 38). -/
def windowImage (s : State) (w : WindowId) : List Byte :=
  [byte (bit (s.window w).enabled), byte (bit (s.window w).setUp),
    match (s.window w).parse with
    | .hunt => 0
    | .lead => 1
    | .text => 2
    | .skip => 3,
    byte (bit (s.window w).protect.isSome + 2 * bit (s.window w).reserveLow)] ++
  leBytes 4 (s.window w).intake.toNat ++ leBytes 4 ((s.window w).protect.getD 0).toNat ++
  [byte (s.window w).absorbed, byte (s.window w).stories.length, imageHandle (s.window w).stories.head?,
    imageHandle (s.openStory w)]

/-- The 24 bytes of a trunk (Table 11-4; log entry 38). -/
def trunkImage (s : State) (t : TrunkId) : List Byte :=
  [match (s.trunk t).bringUp.state with
    | .down => (0 : Byte)
    | .search => 1
    | .confirm => 2
    | .map => 3
    | .settle => 4
    | .up => 5
    | .broken => 6,
    match (s.trunk t).bringUp.farStation with
    | some n => byte n
    | none => 0xFF,
    match (s.trunk t).bringUp.page with
    | some p => byte p.index
    | none => 0,
    match (s.trunk t).transmitter with
    | none => 0
    | some ⟨.bringUp _, _, _, _, _, _, _⟩ => 1
    | some ⟨.data, _, _, _, _, _, _⟩ => 2,
    match (s.trunk t).receiver.alignment with
    | .off => 0
    | .measuring => 1
    | .seeking => 2
    | .locking => 3
    | .framed => 4
    | .data => 5,
    byte (s.trunk t).receiver.measured, byte (bit (s.trunk t).receiver.inBreak),
    byte (bit (s.trunk t).receiver.capture.isSome + 2 * bit (s.trunk t).receiver.mismatch)] ++
  (match (s.trunk t).receiver.capture with
    | some x => [byte x.slot, byte x.pattern.toNat]
    | none => [0, 0]) ++
  [byte (s.trunk t).receiver.errorCount, byte (s.trunk t).receiver.switchWindow] ++
  (match (s.trunk t).bringUp.received with
    | some x => byte x.repeats :: leBytes 3 x.word.toNat
    | none => [0, 0xFF, 0xFF, 0xFF]) ++
  List.replicate 8 0

/-- The 16 bytes of a story record (Table 11-5; log entry 33). -/
def storyImage (s : State) (h : HandleId) : List Byte :=
  [(s.story h).generation,
    byte ((s.story h).state.code + 8 * (s.story h).cls.code + 64 * (s.story h).mode.code),
    byte ((s.story h).window.val + 16 * (s.story h).agency.val), byte (s.story h).holders] ++
  leBytes 2 (s.story h).serial ++ leBytes 2 ((s.story h).embargo.getD 0xFFFF) ++ leBytes 2 (s.story h).textCount ++
  imageDesks (fun d => decide (s.markAt h d = .queued ∨ s.markAt h d = .active)) ++
  imageDesks (fun d => decide (s.markAt h d = .done))

/-- The code of a staging block's state (section 11.4). -/
def stagingState : Staging → Nat
  | .empty => 0
  | .requested _ => 1
  | .full _ _ => 2

/-- The 16 bytes of a desk (Table 11-6; log entries 34 and 38). -/
def deskImage (s : State) (d : DeskId) : List Byte :=
  [byte (bit (s.desk d).isOpen + 2 * bit (s.desk d).preempt + 4 * bit (s.desk d).line + 8 * bit (s.desk d).farStop +
      16 * bit (s.desk d).held + 32 * bit (decide ((s.desk d).shift = .figures))),
    byte (s.desk d).queue.length, imageHandle ((s.desk d).queue.head?.map DeskEntry.handle)] ++
  (match (s.desk d).context with
    | none => [0xFF, 0, 0, 0]
    | some c => byte c.handle.val ::
      byte (c.segment.code + (if c.kind = .killNotice then 4 else 0) + match c.segment with
        | .notice k _ _ => 16 * k.code
        | _ => 0) :: leBytes 2 c.cursor) ++
  byte (s.desk d).column ::
  (match (s.desk d).saved with
    | none => [0xFF, 0]
    | some v => [byte v.handle.val, byte (v.resume.code + match v.cutNotice with
      | some k => 16 * k.code
      | none => 0)]) ++
  [imageHandle ((s.desk d).directNext.map FollowOn.handle), imageHandle ((s.desk d).savedFollowOn.map FollowOn.handle),
    (s.desk d).epoch, byte (s.desk d).underruns,
    byte (stagingState (s.desk d).staging0 + 4 * stagingState (s.desk d).staging1), byte (s.desk d).buffer.length]

/-! ### Cuts and kills -/

/-- A follow-on place holds an item for a story. -/
def Follows (f : Option FollowOn) (t : HandleId) : Prop := ∃ x, f = some x ∧ x.handle = t

/-- A story waits at a desk: a STORY entry of the queue or a follow-on names it. -/
def Waits (k : Desk) (h : HandleId) : Prop :=
  (∃ e ∈ k.queue, e.kind = .story ∧ e.handle = h) ∨ Follows k.directNext h ∨ Follows k.savedFollowOn h

/-- How many places of a desk name a story: current item, saved context, follow-ons and queue entries (R77). -/
def placesOf (k : Desk) (h : HandleId) : Nat :=
  (k.context.toList.countP fun c => decide (c.handle = h)) + (k.saved.toList.countP fun v => decide (v.handle = h)) +
    (k.directNext.toList.countP fun f => decide (f.handle = h)) +
    (k.savedFollowOn.toList.countP fun f => decide (f.handle = h)) + k.queue.countP fun e => decide (e.handle = h)

/-- The DESK_CLOSED record of a desk (R85, R188): how many queue entries and follow-ons are removed, and the current item;
FFh without one (log entry 14). -/
def closedRecord (s : State) (d : DeskId) : Record :=
  let removed := byte ((s.desk d).queue.length + (s.desk d).directNext.toList.length +
    (s.desk d).savedFollowOn.toList.length)
  match (s.desk d).context with
  | some c => naming s .deskClosed (byte (d.val + 1)) c.handle [removed]
  | none => { kind := .deskClosed, subject := byte (d.val + 1), handle := 0xFF, generation := 0xFF, serial := 0
              minute := s.clock.minute, detail := [removed] }

/-- A released story's target qualifies (R68): another story that is HELD, LIVE or SPENT, of its agency, with the serial it
refers to. -/
def Qualifies (s : State) (w t : HandleId) : Prop :=
  t ≠ w ∧ ((s.story t).state = .held ∨ (s.story t).state = .live ∨ (s.story t).state = .spent) ∧
    (s.story t).agency = (s.story w).agency ∧ (s.story w).refSerial = some (s.story t).serial

/-- A story keeps a desk when it is placed as NEW (R69). -/
def Keeps (s : State) (h : HandleId) (d : DeskId) : Prop :=
  ((s.story h).selector = .all ∨ ∃ set, (s.story h).selector = .desks set ∧ d ∈ set) ∧ (s.desk d).isOpen = true ∧
    s.classRefused d (s.story h).cls = false ∧ s.agencyRefused d (s.story h).agency = false

/-- The holder and mark of a story whose entry a desk gives up (R91). -/
def gaveUp (s : State) (d : DeskId) (t : HandleId) : State :=
  (s.onStory t fun r => { r with holders := r.holders - 1 }).setMark t d .dropped

/-- The holder and mark of a story whose item a desk takes in (R70, R90). -/
def tookIn (s : State) (d : DeskId) (w : HandleId) : State :=
  (s.onStory w fun r => { r with holders := r.holders + 1 }).setMark w d .queued

/-- A desk whose composition of the current item has stopped (R119): end tags gone, the epoch raised, staging emptied. -/
def stopped (k : Desk) : Desk :=
  { k with
    epoch := k.epoch + 1, staging0 := .empty, staging1 := .empty
    buffer := k.buffer.map fun x => { x with endTag := false } }

/-- The handle byte of a follow-on, FFh for none. -/
def followByte : Option HandleId → Byte
  | none => 0xFF
  | some w => byte w.val

/-- An entry of a story, by its class. -/
def entryOf (s : State) (w : HandleId) : DeskEntry := { handle := w, kind := .story, cls := (s.story w).cls }

end Sys2Proof.Claims

open Sys2Proof Sys2Proof.Machine Sys2Proof.Claims

/-! ### The machine -/

/-- A step takes the command at the front of the queue and carries it out with the queue's rest. -/
def Obligations.StepCarriesOutFront : Prop :=
  ∀ (c : Instr) (rest : List Instr) (s : State), s.pending = c :: rest →
    step s = exec c { s with pending := rest }

/-- The model's choice (log entry 8): on an empty queue a step is one LREF period. It moves on the hold timer (R13), the
prescaler and filter of MINUTE (R194), and of each trunk the receiver's sampling (R155 to R157, R159, R160), the link and
limit timers (R180, R184) and the transmitter (R143, R147), and changes nothing else; what it makes due joins the queue in
order (log entries 8 and 36). These clauses on the receiver are the model's choice too: which row reads a symbol is log entry
21; that in LOCKING the pair fails at its first symbol that is not FRAME is log entry 20; that a run has the count plus one
samples and the retimer holds the position of the next sample is log entry 31; that a break is counted from the accepted
transition, so that it comes with the 258th sample of the new level, is log entry 41. -/
def Obligations.IdleStepIsOnePeriod : Prop :=
  ∀ s : State, s.pending = [] → ∃ t, step s = .next t ∧
    t = { s with hold := t.hold, clock := t.clock, trunks := t.trunks, pending := t.pending } ∧
    t.hold = s.hold.map (fun h => { h with elapsed := h.elapsed + 1 }) ∧
    t.clock = clockAfter s.clock ∧
    (∀ u, t.trunk u = trunkAfter s u) ∧
    t.pending = clockDue s ++ ([0, 1, 2, 3] : List TrunkId).flatMap fun u =>
      receiverDue s u ++ timersDue s u ++ symbolDue s u

/-- The model's choice: every command in every state has a next state. No step of the part faults and none is refused (log
entry 30), and a step presented without its conditions answers next all the same (log entry 5). -/
def Obligations.NoStepStops : Prop := ∀ (c : Instr) (s : State), ∃ t, exec c s = .next t

/-! ### Hard reset -/

/-- HARD_RESET in every state (R19, R34, R57, R81, R100, R127, R140, R153, R170, R187, R196): every field of the part
at its hard-reset value, and every setup byte at its value of Table 2-2: no ring, no report kind enabled, both lines
active high and push-pull, yield count 8, hold limit 64, fetch limit 4, the six codes, MINUTE edge off. The pins RXD and
MINUTE, the request presented and the command queue stand. The values of the fields that the guide gives no value are
log entries 4 and 33. -/
def Obligations.HardResetClearsThePart : Prop :=
  ∀ (s : State) (straps : BitVec 16), ∃ t, exec (.hardReset straps) s = .next t ∧
    t.mode = .configure ∧ t.straps = straps ∧ (∀ off, Shadow.read t.setup off = setupAtReset off) ∧
    (t.ringCode = 0 ∧ t.ringBase = 0 ∧ (∀ k, t.kindEnabled k = false) ∧ t.lineSetup = 0 ∧ t.yieldCount = 8 ∧
      t.holdLimit = 64 ∧ t.fetchLimit = 4 ∧ t.codeLtrs = 31 ∧ t.codeFigs = 27 ∧ t.codeCr = 8 ∧ t.codeLf = 2 ∧
      t.codeSpace = 4 ∧ t.codeBell = 11 ∧ t.edgeSelect = 0) ∧
    t.stage = none ∧ t.fifo = [] ∧
    t.entries = [] ∧ t.hold = none ∧ t.ownWait = 0 ∧ t.lastOwn = .fetch ∧ t.downBus = none ∧ t.upBus = none ∧
    t.port.map PortRequest.request = s.port.map PortRequest.request ∧
    (∀ p, t.port = some p → p.outcomeFixed = false) ∧
    (∀ w, t.window w = { enabled := false, setUp := false, parse := .hunt, intake := 0, lead := [], textCount := 0,
                         extents := [], stories := [], protect := none, absorbed := 0, reserveLow := false }) ∧
    (∀ h, t.story h =
      { generation := 0, state := .free, window := 0, agency := 0, serial := 0, cls := .routine, mode := .new
        refSerial := none, refHandle := none, embargo := none, selector := .desks [], slug := [], origin := 0
        textCount := 0, extents := [], marks := Vector.replicate 24 .absent, holders := 0 }) ∧
    t.completion = [] ∧
    (∀ d, t.desk d = { isOpen := false, queue := [], directNext := none, savedFollowOn := none, preempt := false,
                       context := none, saved := none, line := false, farStop := false, held := false, buffer := [],
                       shift := .letters, column := 0, epoch := 0, underruns := 0, staging0 := .empty,
                       staging1 := .empty }) ∧
    t.fetchPointer = 23 ∧
    (∀ u, t.trunk u =
      { transmitter := none
        bringUp := { state := .down, received := none, farStation := none, page := none, linkTimer := none,
                     limitTimer := none }
        receiver :=
          { rxd := (s.trunk u).receiver.rxd, lastSample := .mark, accepted := .mark, sampleTimer := 0, retimer := 1,
            inBreak := false, run := 0, alignment := .off, measured := 0, mismatch := false, measurement := none,
            units := 0, unitCount := 0, lock := none, ref := none, missCount := 0, switchWindow := 0, capture := none,
            errorCount := 0 } }) ∧
    t.writer = { queue := [], writeIndex := 0, consumed := 0, missed := 0, alert := false, notice := false,
                 storeFault := false, outstanding := none, snapshot := none } ∧
    t.clock = { minute := 0, pin := s.clock.pin, lastSample := none, accepted := none, lref := 0 } ∧
    t.pending = s.pending

/-! ### The store path -/

/-- TAKE_UPSTREAM_REQUEST of a well-formed read is forwarded unaltered, wherever it falls (R1, R3, R4 step 1, R14). -/
def Obligations.TakeReadForwards : Prop :=
  ∀ (s : State) (a : Addr) (n : Nat), InForm a n → TakenNow s (.read a n) →
    exec (.takeUpstreamRequest (.read a n)) s =
      .next (forwarded { s with ownWait := waited s } (.read a n) .read)

/-- TAKE_UPSTREAM_REQUEST of a request that breaks the form of R1 is completed by the part with ERROR, a read with its
beats all zero, and reaches no other block (R2). That a request of no beat, or off an 8-byte boundary, counts as one
is log entry 9; that its completion goes back at once when no older upstream request is outstanding, which R10 says of an
absorbed write, is log entry 11. -/
def Obligations.TakeMalformedRefuses : Prop :=
  (∀ (s : State) (a : Addr) (n : Nat), ¬ InForm a n → TakenNow s (.read a n) →
    exec (.takeUpstreamRequest (.read a n)) s =
      .next (completedHere { s with ownWait := waited s } .read ⟨.error, List.replicate n 0⟩)) ∧
  ∀ (s : State) (a : Addr) (beats : List Beat), ¬ InForm a beats.length → TakenNow s (.write a beats) →
    exec (.takeUpstreamRequest (.write a beats)) s =
      .next (completedHere { s with ownWait := waited s } .write ⟨.error, []⟩)

/-- TAKE_UPSTREAM_REQUEST of a write with an enabled byte in a window's held span is absorbed with OK, and the window's
protect latch or absorbed count follows (R4 step 2, R5, R49). -/
def Obligations.TakeProtectedAbsorbs : Prop :=
  ∀ (s : State) (a : Addr) (beats : List Beat) (b : Addr × Byte) (more : List (Addr × Byte)) (w : WindowId),
    InForm a beats.length → TakenNow s (.write a beats) → enabledBytes a beats = b :: more →
    s.touchedWindow (b :: more) = some w →
    ∃ t u, exec (.takeUpstreamRequest (.write a beats)) s = .next t ∧
      u = completedHere { s with ownWait := waited s } .write ⟨.ok, []⟩ ∧
      ((s.window w).protect = none →
        t = (u.onWindow w fun k => { k with protect := some b.1 }).report
          (plain s .protectedWrite (byte w.val) (leBytes 4 b.1.toNat))) ∧
      ((s.window w).protect.isSome →
        t = u.onWindow w fun k => { k with absorbed := if k.absorbed < 255 then k.absorbed + 1 else k.absorbed })

/-- TAKE_UPSTREAM_REQUEST of a write outside every held span, the control page and every ENABLED window, or with no byte
enabled, is forwarded unaltered (R2, R4 step 5). -/
def Obligations.TakePlainWriteForwards : Prop :=
  ∀ (s : State) (a : Addr) (beats : List Beat), InForm a beats.length → TakenNow s (.write a beats) →
    (enabledBytes a beats = [] ∨
      (s.touchedWindow (enabledBytes a beats) = none ∧ s.inPage a = false ∧ s.enabledWindow a = none)) →
    exec (.takeUpstreamRequest (.write a beats)) s =
      .next (forwarded { s with ownWait := waited s } (.write a beats) .write)

/-- TAKE_UPSTREAM_REQUEST of a control-page write (R4 step 3, R6, R11, R13, R22): with room in the FIFO, or when it makes
no item, it is forwarded as written and its copy taken; when it would make an item and the FIFO holds 4, it is held with
FIFO_FULL and the hold limit in force. The copy is made word by word in address order, the actions of its words one item
(R21 to R23): a word without an enabled byte makes nothing; the command word and the consumed index make an action when
their first byte (or one of their first two) is enabled, with 0 for every byte that is not; a one-word entry makes a commit;
an earlier word of another entry is staged, restarting the stage of a different entry; its last word makes a commit with
the staged bytes, marked UNSTAGED unless every earlier word is staged, and empties the stage. -/
def Obligations.TakePageWrite : Prop :=
  (∀ (s : State) (a : Addr) (beats : List Beat), InForm a beats.length → TakenNow s (.write a beats) →
    enabledBytes a beats ≠ [] → s.touchedWindow (enabledBytes a beats) = none → s.inPage a = true →
    exec (.takeUpstreamRequest (.write a beats)) s = .next
      (if (s.copyOf a beats).actions = [] then
        { forwarded { s with ownWait := waited s } (.write a beats) .write with stage := (s.copyOf a beats).stage }
      else if s.fifo.length < 4 then
        { forwarded { s with ownWait := waited s } (.write a beats) .write with
          stage := (s.copyOf a beats).stage
          fifo := s.fifo ++ [(s.copyOf a beats).actions] }
      else
        { s with
          ownWait := waited s
          port := some ⟨.write a beats, false⟩
          hold := some { cause := .fifoFull, limit := s.holdLimit, elapsed := 0 } })) ∧
  (∀ (s : State) (a : Addr) (b : Beat), a.toNat % 8 = 0 →
    WordCopied s.stage (a.toNat % 4096) b (s.copyOf a [b])) ∧
  ∀ (s : State) (a : Addr) (b : Beat) (more : List Beat) (x y : Copied), InForm a (b :: more).length →
    x = s.copyOf a [b] → y = ({ s with stage := x.stage } : State).copyOf (a + 8) more →
    s.copyOf a (b :: more) = ⟨y.stage, x.actions ++ y.actions⟩

/-- TAKE_UPSTREAM_REQUEST of a write into an ENABLED window in HUNT with an empty list, in sequence and without a START
byte: it is forwarded with its bytes translated, nothing is opened, and the intake position moves past it (R36, R38,
R40). -/
def Obligations.TakeIgnoredWindowWrite : Prop :=
  ∀ (s : State) (a : Addr) (beats : List Beat) (w : WindowId), InForm a beats.length → TakenNow s (.write a beats) →
    enabledBytes a beats ≠ [] → s.touchedWindow (enabledBytes a beats) = none → s.inPage a = false →
    s.enabledWindow a = some w → (s.window w).stories = [] → (s.window w).parse = .hunt →
    (∀ b ∈ enabledBytes a (beats.map (s.translateBeat w)), b.2 ≠ 0x01) →
    s.inSequence w (enabledBytes a (beats.map (s.translateBeat w))) = true →
    exec (.takeUpstreamRequest (.write a beats)) s = .next
      (((forwarded
        (({ s with ownWait := waited s } : State).onWindow w fun k =>
          { k with intake := s.afterLast w (enabledBytes a (beats.map (s.translateBeat w))) })
        (.write a (beats.map (s.translateBeat w))) .write).testFlags).testRooms)

/-- A request presented while the arbiter does not grant the upstream side is not taken: it stands at the port and nothing
else changes (R3, R14). A request that already stands there goes on standing, and while one stands it is the one that is
taken, whatever request the step names: the model's choice, log entry 10. -/
def Obligations.RequestWaitsForGrant : Prop :=
  (∀ (s : State) (r : BusRequest),
    (s.hold.isSome ∨ 8 ≤ s.upstreamEntries ∨ (s.yieldCount ≤ s.ownWait ∧ s.ownReady = true)) →
    (s.port = none → exec (.takeUpstreamRequest r) s = .next { s with port := some ⟨r, false⟩ }) ∧
    (s.port ≠ none → exec (.takeUpstreamRequest r) s = .next s)) ∧
  ∀ (s : State) (p : PortRequest) (r : BusRequest), s.port = some p →
    exec (.takeUpstreamRequest r) s = exec (.takeUpstreamRequest p.request) s

/-- HOLD_TIMER_EXPIRY with no hold does nothing; of a FIFO_FULL hold it reports COMMAND_REFUSED with reason FIFO_FULL,
the command code (FFh when the write does not enable byte 0 of E00h) and the offset of the write's first word, the first
beat that enables a byte; the write is left to be forwarded without a copy, and at its next grant it is issued downstream
without being classified again (R12, R21, R24). That the record's target byte is 0 is log entry 15. -/
def Obligations.HoldExpiryFifoFull : Prop :=
  (∀ s : State, s.hold = none → exec .holdTimerExpiry s = .next s) ∧
  (∀ (s : State) (limit elapsed : Nat) (a : Addr) (blank more : List Beat) (b : Beat) (fixed : Bool) (code : Byte),
    s.hold = some ⟨.fifoFull, limit, elapsed⟩ → s.port = some ⟨.write a (blank ++ b :: more), fixed⟩ →
    InForm a (blank ++ b :: more).length → (∀ x ∈ blank, x.enables = 0) → b.enables ≠ 0 →
    (∀ x ∈ enabledBytes a (blank ++ b :: more), x.1.toNat = 4096 * s.straps.toNat + 0xE00 → code = x.2) →
    ((∀ x ∈ enabledBytes a (blank ++ b :: more), x.1.toNat ≠ 4096 * s.straps.toNat + 0xE00) → code = 0xFF) →
    exec .holdTimerExpiry s = .next
      (({ s with hold := none, port := some ⟨.write a (blank ++ b :: more), true⟩ } : State).report
        (plain s .commandRefused 0xFF
          ([code, 0, 6] ++ leBytes 2 ((a.toNat + 8 * blank.length) % 4096))))) ∧
  ∀ (s : State) (r : BusRequest), s.port = some ⟨r, true⟩ → s.hold = none → s.upstreamEntries < 8 →
    (s.ownWait < s.yieldCount ∨ s.ownReady = false) →
    exec (.takeUpstreamRequest r) s = .next (forwarded { s with ownWait := waited s } r (accessOf r))

/-- HOLD_TIMER_EXPIRY of a RING_FULL or TABLE_FULL hold (R10, R12, R46, R50, R51, R63): the write is absorbed with OK and the
hold is over; the window's OPEN story, if there is one, is abandoned first with WINDOW_FULL (15) or TABLE_FULL (16);
WINDOW_FULL or STORY_REFUSED is reported, and the parser is in HUNT, or past the write in SKIP. These clauses are the model's
choice: that the room reported is the one after the abandonment is log entry 17; that the START reported is the one found when
the hold began is log entry 39; that the abandoned record holds window 0, agency 0 and origin 0 is log entry 33; that the room
tests, with their WINDOW_LOW, come after these reports is log entry 42. -/
def Obligations.HoldExpiryAbsorbs : Prop :=
  (∀ (s u : State) (w : WindowId) (limit elapsed : Nat) (p : PortRequest), s.hold = some ⟨.ringFull w, limit, elapsed⟩ →
    s.port = some p →
    (s.openStory w = none →
      u = (completedHere { s with hold := none } (accessOf p.request) ⟨.ok, []⟩).onWindow w fun k =>
        { k with parse := .hunt }) →
    (∀ h, s.openStory w = some h → (s.story h).window = w ∧
      u = abandoned (completedHere { s with hold := none } (accessOf p.request) ⟨.ok, []⟩) w h 15 .hunt) →
    exec .holdTimerExpiry s = .next
      ((u.report (plain s .windowFull (byte w.val)
        (leBytes 4 (((requestBytes p.request).map Prod.fst).head?.getD 0).toNat ++ leBytes 3 (u.room w)))).testRooms)) ∧
  ∀ (s u : State) (w : WindowId) (start : Addr) (limit elapsed : Nat) (p : PortRequest),
    s.hold = some ⟨.tableFull w start, limit, elapsed⟩ → s.port = some p →
    (s.openStory w = none →
      u = (completedHere { s with hold := none } (accessOf p.request) ⟨.ok, []⟩).onWindow w fun k =>
        { k with parse := .skip }) →
    (∀ h, s.openStory w = some h → (s.story h).window = w ∧
      u = abandoned (completedHere { s with hold := none } (accessOf p.request) ⟨.ok, []⟩) w h 16 .skip) →
    exec .holdTimerExpiry s = .next
      (((u.onWindow w fun k => { k with intake := s.afterLast w (requestBytes p.request) }).report
        (plain s .storyRefused (byte w.val) (leBytes 4 start.toNat))).testRooms)

/-- UPSTREAM_COMPLETION_RETURN (R10): the oldest UPSTREAM entry, once COMPLETE, goes back with its status and data and
is removed; while it is WAITING, or with none, nothing is returned. Own entries do not delay it. That a step presented
without its conditions changes nothing is log entry 5. -/
def Obligations.UpstreamReturnsInOrder : Prop :=
  (∀ (s : State) (older newer : List QueueEntry) (e : QueueEntry) (c : Completion),
    s.entries = older ++ e :: newer → (∀ x ∈ older, x.owner ≠ .upstream) → e.owner = .upstream → e.result = some c →
    exec .upstreamCompletionReturn s = .next { s with entries := older ++ newer, upBus := some c }) ∧
  (∀ (s : State) (older newer : List QueueEntry) (e : QueueEntry),
    s.entries = older ++ e :: newer → (∀ x ∈ older, x.owner ≠ .upstream) → e.owner = .upstream → e.result = none →
    exec .upstreamCompletionReturn s = .next s) ∧
  ∀ s : State, (∀ x ∈ s.entries, x.owner ≠ .upstream) → exec .upstreamCompletionReturn s = .next s

/-- DOWNSTREAM_COMPLETION (R9) is matched to the oldest WAITING entry without the LOCAL mark: an UPSTREAM entry keeps the
status, and for a read the beats; with no such entry the completion is discarded and nothing changes. That a matched
UPSTREAM entry is returned by a step of its own, UPSTREAM_COMPLETION_RETURN, is log entry 11. -/
def Obligations.CompletionMatchesOldestWaiting : Prop :=
  (∀ (s : State) (older newer : List QueueEntry) (e : QueueEntry) (st : Status) (data : List BeatData),
    s.entries = older ++ e :: newer → (∀ x ∈ older, x.result.isSome ∨ x.isLocal = true) → e.result = none →
    e.isLocal = false → e.owner = .upstream →
    exec (.downstreamCompletion st data) s = .next
      { s with entries := older ++ { e with result := some ⟨st, if e.access = .read then data else []⟩ } :: newer }) ∧
  ∀ (s : State) (st : Status) (data : List BeatData), (∀ x ∈ s.entries, x.result.isSome ∨ x.isLocal = true) →
    exec (.downstreamCompletion st data) s = .next s

/-- DOWNSTREAM_COMPLETION of a text read (R9, R119, R135, R136, R139): with the desk's present epoch, OK fills the older
REQUESTED staging block, 0 or 1, with its 32 bytes, and ERROR reports FETCH_ERROR with that block, cuts the item in TEXT, its
mark CUT, staging emptied and the epoch raised, reports STORY_CUT, and the TEXT LOST notice begins, or the item ends where
that is left out; with any other epoch it is discarded, whatever its status. Its entry leaves the queue each time. The flag
and room tests follow a cut. These clauses are the model's choice: an OK return of fewer than 4 beats fills the block with the
bytes that came, and any for the rest, is log entry 3; that a return of the present epoch that finds no REQUESTED block is
discarded is log entry 22; that the record of a story that becomes FREE holds window 0, agency 0 and origin 0 is log entry 33.
An ERROR at a desk that is not in TEXT cannot come (R139) and is left out. -/
def Obligations.TextReadReturns : Prop :=
  (∀ (s : State) (older newer : List QueueEntry) (e : QueueEntry) (d : DeskId) (epoch : BitVec 8) (st : Status)
    (data : List BeatData),
    s.entries = older ++ e :: newer → (∀ x ∈ older, x.result.isSome ∨ x.isLocal = true) → e.result = none →
    e.isLocal = false → e.owner = .fetch d epoch → (s.desk d).epoch ≠ epoch →
    exec (.downstreamCompletion st data) s = .next { s with entries := older ++ newer }) ∧
  (∀ (s : State) (older newer : List QueueEntry) (e : QueueEntry) (d : DeskId) (second : Bool) (b : TextBlock)
    (b0 b1 b2 b3 : BeatData),
    s.entries = older ++ e :: newer → (∀ x ∈ older, x.result.isSome ∨ x.isLocal = true) → e.result = none →
    e.isLocal = false → e.owner = .fetch d (s.desk d).epoch → OlderRequested (s.desk d) second b →
    exec (.downstreamCompletion .ok [b0, b1, b2, b3]) s = .next
      (({ s with entries := older ++ newer } : State).onDesk d fun k =>
        if second then { k with staging1 := .full b (beatsBytes [b0, b1, b2, b3]) }
        else { k with staging0 := .full b (beatsBytes [b0, b1, b2, b3]) })) ∧
  (∀ (s : State) (older newer : List QueueEntry) (e : QueueEntry) (d : DeskId) (second : Bool) (b : TextBlock)
    (data : List BeatData),
    s.entries = older ++ e :: newer → (∀ x ∈ older, x.result.isSome ∨ x.isLocal = true) → e.result = none →
    e.isLocal = false → e.owner = .fetch d (s.desk d).epoch → OlderRequested (s.desk d) second b → data.length < 4 →
    ∃ (t : State) (rest : List Byte), exec (.downstreamCompletion .ok data) s = .next t ∧
      rest.length + 8 * data.length = 32 ∧
      t = ({ s with entries := older ++ newer, freeUse := t.freeUse } : State).onDesk d fun k =>
        if second then { k with staging1 := .full b (beatsBytes data ++ rest) }
        else { k with staging0 := .full b (beatsBytes data ++ rest) }) ∧
  (∀ (s : State) (older newer : List QueueEntry) (e : QueueEntry) (d : DeskId) (st : Status) (data : List BeatData),
    s.entries = older ++ e :: newer → (∀ x ∈ older, x.result.isSome ∨ x.isLocal = true) → e.result = none →
    e.isLocal = false → e.owner = .fetch d (s.desk d).epoch → (∀ b, (s.desk d).staging0 ≠ .requested b) →
    (∀ b, (s.desk d).staging1 ≠ .requested b) →
    exec (.downstreamCompletion st data) s = .next { s with entries := older ++ newer }) ∧
  ∀ (s u v : State) (older newer : List QueueEntry) (e : QueueEntry) (d : DeskId) (second : Bool) (b : TextBlock)
    (c : SendContext) (data : List BeatData),
    s.entries = older ++ e :: newer → (∀ x ∈ older, x.result.isSome ∨ x.isLocal = true) → e.result = none →
    e.isLocal = false → e.owner = .fetch d (s.desk d).epoch → OlderRequested (s.desk d) second b →
    (s.desk d).context = some c → c.segment = .text →
    u = ({ s with entries := older ++ newer } : State).report
      (naming s .fetchError (byte (d.val + 1)) c.handle (leBytes 4 b.address.toNat ++ leBytes 2 b.first)) →
    v = ((u.onDesk d stopped).setMark c.handle d .cut).report
      (naming s .storyCut (byte (d.val + 1)) c.handle [5, 0, 1, 0xFF]) →
    (∀ y, goesOn v d c (.notice .textLost c.handle .finish) y →
      exec (.downstreamCompletion .error data) s = .next (((v.onDesk d fun k =>
        { k with context := some y }).testFlag d).testRooms)) ∧
    (LeftOut s .textLost → exec (.downstreamCompletion .error data) s = .next (((ended v d c.handle).testFlag d).testRooms))

/-- DOWNSTREAM_COMPLETION of a report write (R9, R18, R190 to R192): the write counts as done whatever its status; the
index advances, wrapping; the record's line is set; an ERROR sets the store-fault flag and ALERT. An abandoned write only
ceases to be outstanding. -/
def Obligations.ReportWriteCompletes : Prop :=
  ∀ (s : State) (older newer : List QueueEntry) (e : QueueEntry) (kind : ReportKind) (abandoned : Bool) (st : Status)
    (data : List BeatData),
    s.entries = older ++ e :: newer → (∀ x ∈ older, x.result.isSome ∨ x.isLocal = true) → e.result = none →
    e.isLocal = false → e.owner = .report → s.writer.outstanding = some ⟨.record kind, abandoned⟩ →
    ∃ t, exec (.downstreamCompletion st data) s = .next t ∧
      (abandoned = true → t =
        { s with entries := older ++ newer, writer := { s.writer with outstanding := none } }) ∧
      (abandoned = false → t =
        { s with
          entries := older ++ newer
          writer :=
            { s.writer with
              outstanding := none
              writeIndex := (s.writer.writeIndex + 1) % s.ringSize
              storeFault := s.writer.storeFault || decide (st = .error)
              alert := s.writer.alert || decide (st = .error) || (s.kindEnabled kind && decide (11 ≤ kind.code))
              notice := s.writer.notice || (s.kindEnabled kind && decide (kind.code ≤ 10)) } })

/-- DOWNSTREAM_COMPLETION of the eighth snapshot write ends the snapshot and makes SNAPSHOT_READY with the kind and the
store-fault flag; of an earlier one the snapshot goes on (R190, R193). -/
def Obligations.SnapshotWriteCompletes : Prop :=
  ∀ (s : State) (older newer : List QueueEntry) (e : QueueEntry) (x : Snapshot) (st : Status) (data : List BeatData),
    s.entries = older ++ e :: newer → (∀ y ∈ older, y.result.isSome ∨ y.isLocal = true) → e.result = none →
    e.isLocal = false → e.owner = .snapshot → s.writer.outstanding = some ⟨.block, false⟩ →
    s.writer.snapshot = some x →
    ∃ u, u = { s with
        entries := older ++ newer
        writer :=
          { s.writer with
            outstanding := none
            storeFault := s.writer.storeFault || decide (st = .error)
            alert := s.writer.alert || decide (st = .error) } } ∧
      exec (.downstreamCompletion st data) s = .next
        (if x.issued = 8 then
          (u.onWriter fun w => { w with snapshot := none }).report
            (plain s .snapshotReady 0xFF [byte x.kind, if u.writer.storeFault then 1 else 0])
        else u)

/-! ### The arbiter's grants -/

/-- FETCH_READ_GRANT and REPORT_WRITE_GRANT (R1, R14, R15, R130 to R133, R188, R190). Granted to the fetch engine, a grant
serves the first eligible desk after the pointer: it issues one 32-byte read of the desk's next text block, at that
block's address, a multiple of 32, marks EMPTY staging block 0, or else 1, REQUESTED, tags the entry with the desk and
its epoch, and moves the pointer. Granted to the report writer with a record to write, it writes the 16 bytes of the
queue head, every one enabled, with the missed count in byte 8, at the write index; the missed count returns to 0 and the
write is outstanding. -/
def Obligations.FetchReadAndReportWriteGranted : Prop :=
  (∀ (s : State) (d : DeskId) (b : TextBlock), s.grantsFetch = true → ServedNext s d b →
    b.address.toNat % 32 = 0 ∧
    exec .fetchReadGrant s = .next
      { s.onDesk d (fun k => if k.staging0 = .empty then { k with staging0 := .requested b }
          else { k with staging1 := .requested b }) with
        entries := s.entries ++
          [{ owner := .fetch d (s.desk d).epoch, access := .read, isLocal := false, result := none }]
        downBus := some (.read b.address 4)
        ownWait := 0
        lastOwn := .fetch
        fetchPointer := d }) ∧
  (∀ s : State, s.grantsFetch = true → ∃ d b, ServedNext s d b) ∧
  ∀ (s : State) (r : Record) (more : List Record), s.grantsWriter = true → s.offersRecord = true →
    s.writer.queue = r :: more →
    (recordBytes r s.writer.missed).length = 16 ∧
    ∃ b0 b1, beatsBytes [b0, b1] = recordBytes r s.writer.missed ∧
      exec .reportWriteGrant s = .next
        { s with
          writer :=
            { s.writer with
              queue := more, missed := 0, outstanding := some { write := .record r.kind, abandoned := false } }
          entries := s.entries ++ [{ owner := .report, access := .write, isLocal := false, result := none }]
          downBus := some (.write (BitVec.ofNat 28 (s.ringBase + 16 * s.writer.writeIndex)) [⟨b0, 0xFF⟩, ⟨b1, 0xFF⟩])
          ownWait := 0
          lastOwn := .report }

/-- SNAPSHOT_WRITE_GRANT (R1, R14, R193): granted to the report writer with a snapshot write due, it writes the next 32
bytes of the captured image into the snapshot area. -/
def Obligations.SnapshotWriteGranted : Prop :=
  ∀ (s : State) (x : Snapshot), s.grantsWriter = true → s.writer.outstanding = none → s.writer.snapshot = some x →
    x.issued < 8 →
    exec .snapshotWriteGrant s = .next
      { s with
        writer :=
          { s.writer with
            snapshot := some { x with issued := x.issued + 1 }
            outstanding := some { write := .block, abandoned := false } }
        entries := s.entries ++ [{ owner := .snapshot, access := .write, isLocal := false, result := none }]
        downBus := some (.write (BitVec.ofNat 28 (s.straps.toNat * 4096 + 0xF00 + 32 * x.issued))
          (bytesBeats 4 (x.image.drop (32 * x.issued))))
        ownWait := 0
        lastOwn := .report }

/-- The arbiter (R14, R15): the upstream side is granted when it is ready and has not waited out an own request; otherwise
a ready own source, and of two ready ones the one not served last. At most one claimant is granted, and one is whenever any
is ready. -/
def Obligations.ArbiterGrantsOne : Prop :=
  ∀ s : State,
    (s.grantsUpstream = true ↔ s.upstreamReady = true ∧ (s.ownWait < s.yieldCount ∨ s.ownReady = false)) ∧
    (s.grantsWriter = true ↔ s.grantsUpstream = false ∧ s.writerReady = true ∧
      (s.fetchReady = true → s.lastOwn = .fetch)) ∧
    (s.grantsFetch = true ↔ s.grantsUpstream = false ∧ s.fetchReady = true ∧
      (s.writerReady = true → s.lastOwn = .report)) ∧
    ¬ (s.grantsWriter = true ∧ s.grantsFetch = true) ∧
    (s.upstreamReady = true ∨ s.ownReady = true → s.grantsUpstream = true ∨ s.grantsWriter = true ∨ s.grantsFetch = true)

/-! ### The control unit -/

/-- SETUP_COMMIT of the item at the head, a commit first (R22, R24, R25): the first check that fails refuses it with
SETUP_REFUSED, the reason and the entry's offset, and the shadow stands; a commit that passes puts every enabled byte in
place of the matching shadow byte. General word 0 returns both ring indices to 0 and abandons a report write outstanding
(R191); a window entry marks its window set up and moves the intake position to the base (R27, R56). -/
def Obligations.CommitTakesEffectOrIsRefused : Prop :=
  (∀ (s : State) (e : EntryId) (staged : Bool) (cells : List Host.Cell) (more : List Action) (reason : SetupReason),
    Head s (.commit e staged cells) more → s.commitFault e staged (Shadow.overlay s.setup cells) = some reason →
    exec .setupCommit s = .next
      (itemDone more (s.report (plain s .setupRefused 0xFF (byte reason.code :: leBytes 2 e.base))))) ∧
  (∀ (s : State) (e : EntryId) (staged : Bool) (cells : List Host.Cell) (more : List Action) (u : State),
    Head s (.commit e staged cells) more → s.commitFault e staged (Shadow.overlay s.setup cells) = none →
    u = { s with setup := Shadow.overlay s.setup cells } →
    (e = .general 0 →
      exec .setupCommit s = .next (itemDone more (u.onWriter fun w =>
        { w with
          writeIndex := 0
          consumed := 0
          outstanding := w.outstanding.map fun o =>
            match o.write with
            | .record _ => { o with abandoned := true }
            | .block => o }))) ∧
    (∀ w, e = .window w →
      exec .setupCommit s = .next (itemDone more (u.onWindow w fun k =>
        { k with setUp := true, intake := BitVec.ofNat 28 (u.windowBase w) }))) ∧
    (e ≠ .general 0 → (∀ w, e ≠ .window w) → exec .setupCommit s = .next (itemDone more u))) ∧
  ∀ (m cells : List Host.Cell) (off : Nat),
    Shadow.read (Shadow.overlay m cells) off =
      match cells.reverse.find? (fun c => decide (c.1 = off)) with
      | some c => c.2
      | none => Shadow.read m off

/-- The checks of a commit in CONFIGURE or RUN (R25, R26, R28, R29): an unstaged one fails as UNSTAGED, a locked one as
LOCKED (Table 2-9), and the legal values of general words 1 to 4, desks, agencies, phrases and trunks are those of Tables
2-2 to 2-7, with no desk mapped twice. Staging comes before the lock, and the lock before the values, which are checked alike
in either mode; a value that is not legal is OUT_OF_RANGE, and only a trunk entry of legal values is DUPLICATE_DESK. The
reasons have codes 1 to 6 of Table 2-11. -/
def Obligations.CommitLocksAndLegalValues : Prop :=
  (∀ (s : State) (e : EntryId) (m : List Host.Cell), s.commitFault e false m = some .unstaged) ∧
  (∀ (s : State) (e : EntryId) (m : List Host.Cell), s.mode = .run → LockedInRun s e →
    s.commitFault e true m = some .locked) ∧
  (∀ (s : State) (e : EntryId) (m : List Host.Cell), s.mode = .configure ∨ ¬ LockedInRun s e →
    s.commitFault e true m ≠ some .locked) ∧
  (∀ (s : State) (e : EntryId) (m : List Host.Cell), s.mode = .run → ¬ LockedInRun s e →
    s.commitFault e true m = ({ s with mode := .configure } : State).commitFault e true m) ∧
  (∀ (s : State) (e : EntryId) (m : List Host.Cell), s.mode = .configure → e ≠ .general 0 → (∀ w, e ≠ .window w) →
    (∀ t, e ≠ .trunk t) → s.commitFault e true m = none ∨ s.commitFault e true m = some .outOfRange) ∧
  (∀ (s : State) (t : TrunkId) (m : List Host.Cell), s.mode = .configure →
    (s.commitFault (.trunk t) true m = some .outOfRange ↔ ¬ TrunkLegal m t) ∧
    (s.commitFault (.trunk t) true m = some .duplicateDesk ↔ TrunkLegal m t ∧ MappedTwice m) ∧
    (s.commitFault (.trunk t) true m = none ↔ TrunkLegal m t ∧ ¬ MappedTwice m)) ∧
  ([.unstaged, .locked, .outOfRange, .alignment, .overlap, .duplicateDesk] : List SetupReason).map SetupReason.code =
    [1, 2, 3, 4, 5, 6] ∧
  ∀ (s : State) (m : List Host.Cell) (v : Nat → Nat), s.mode = .configure → (∀ i, v i = (Shadow.read m i).toNat) →
    s.commitFault (.general 1) true m = none ∧
    (s.commitFault (.general 2) true m = none ↔
      (1 ≤ v 0x10 ∧ v 0x10 ≤ 64) ∧ 1 ≤ v 0x11 ∧ (1 ≤ v 0x12 ∧ v 0x12 ≤ 8)) ∧
    (s.commitFault (.general 3) true m = none ↔
      ∀ i < 6, v (0x18 + i) ≤ 31 ∧ ∀ j < 6, v (0x18 + i) = v (0x18 + j) → i = j) ∧
    (s.commitFault (.general 4) true m = none ↔ v 0x20 ≤ 3) ∧
    (∀ d : DeskId, s.commitFault (.desk d) true m = none ↔
      (v (0x140 + 0x10 * d.val + 8) = 0 ∨
        (20 ≤ v (0x140 + 0x10 * d.val + 8) ∧ v (0x140 + 0x10 * d.val + 8) ≤ 72)) ∧
      v (0x140 + 0x10 * d.val + 9) ≤ 7) ∧
    (∀ a : AgencyId, s.commitFault (.agency a) true m = none ↔
      (1 ≤ v (0x2C0 + 0x10 * a.val + 4) ∧ v (0x2C0 + 0x10 * a.val + 4) ≤ 4) ∧ v (0x2C0 + 0x10 * a.val + 5) ≤ 8) ∧
    (∀ p, s.commitFault (.phrase p) true m = none ↔ v (0x3C0 + 0x20 * p.val) ≤ 31) ∧
    (∀ p k, s.commitFault (.codeWord p k) true m = none) ∧
    ∀ k, s.commitFault (.convWord k) true m = none

/-- The checks of a window entry and of general word 0 in CONFIGURE, in the order of R25 (R25 to R27): field ranges
(OUT_OF_RANGE), alignment to the size (ALIGNMENT), and no address shared with the control page, the report ring or another
set-up window (OVERLAP). The commit carries the first that fails. That the top four bits of the ring base must be zero also
with size code 0 is log entry 16. -/
def Obligations.CommittedRangesDoNotMeet : Prop :=
  ∀ (s : State) (m : List Host.Cell), s.mode = .configure →
    (∀ w : WindowId,
      (s.commitFault (.window w) true m = some .outOfRange ↔ ¬ WindowLegal m w) ∧
      (s.commitFault (.window w) true m = some .alignment ↔ WindowLegal m w ∧ ¬ WindowAligned m w) ∧
      (s.commitFault (.window w) true m = some .overlap ↔ WindowLegal m w ∧ WindowAligned m w ∧ ¬ WindowApart s m w) ∧
      (s.commitFault (.window w) true m = none ↔ WindowLegal m w ∧ WindowAligned m w ∧ WindowApart s m w)) ∧
    (s.commitFault (.general 0) true m = some .outOfRange ↔ ¬ RingLegal m) ∧
    (s.commitFault (.general 0) true m = some .alignment ↔ RingLegal m ∧ ¬ RingAligned m) ∧
    (s.commitFault (.general 0) true m = some .overlap ↔ RingLegal m ∧ RingAligned m ∧ ¬ RingApart s m) ∧
    (s.commitFault (.general 0) true m = none ↔ RingLegal m ∧ RingAligned m ∧ RingApart s m)

/-- CONSUMED_INDEX (R33, R191): with a ring, a value below its size and no further forward than the write index
becomes the consumed index; any other is refused with BAD_ARGUMENT and command code FFh. That the record's target byte
is 0 is log entry 15. -/
def Obligations.ConsumedIndexWithinWritten : Prop :=
  ∀ (s : State) (v : Nat) (more : List Action), Head s (.consumed v) more →
    (s.ringCode ≠ 0 → v < s.ringSize →
      forward s.ringSize s.writer.consumed v ≤ forward s.ringSize s.writer.consumed s.writer.writeIndex →
      exec .consumedIndex s = .next (itemDone more (s.onWriter fun w => { w with consumed := v }))) ∧
    (s.ringCode = 0 ∨ s.ringSize ≤ v ∨
      forward s.ringSize s.writer.consumed s.writer.writeIndex < forward s.ringSize s.writer.consumed v →
      exec .consumedIndex s = .next
        (itemDone more (s.report (plain s .commandRefused 0xFF [0xFF, 0, 2, 0, 0]))))

/-- GO in CONFIGURE sets RUN and changes nothing else, so every window, trunk and desk stays as it stands and no report is
made; in RUN it is refused with WRONG_MODE; the mode is byte 3 of the general image (R30). -/
def Obligations.GoSetsRun : Prop :=
  ∀ (s : State) (w : CommandWord) (more : List Action), Head s (.command w) more → w.code = 0x01 →
    (s.mode = .configure → exec .go s = .next (itemDone more { s with mode := .run })) ∧
    (s.mode = .run → exec .go s = .next (itemDone more (s.report (refusal s w 1 false)))) ∧
    (s.image 0)[3]? = some (if s.mode = .run then 1 else 0)

/-- SOFT_RESET in either mode (R31, R58, R82, R101, R128, R141, R154, R171, R187): CONFIGURE, every story FREE with its
generation, every window, desk and trunk put back, the reports cleared and SOFT_RESET_DONE made; the setup, set-up marks,
entry stage, FIFO, completion queue and clock stay. That a FREE record holds window 0, agency 0 and origin 0 is the model's
choice (log entry 33). -/
def Obligations.SoftResetClearsThePart : Prop :=
  ∀ (s : State) (w : CommandWord) (more : List Action), Head s (.command w) more → w.code = 0x02 →
    ∃ u : State, exec .softReset s = .next (itemDone more (u.report (plain s .softResetDone 0xFF []))) ∧
      u = { s with
        mode := .configure, hold := none, windows := u.windows, stories := u.stories, completion := []
        desks := u.desks, trunks := u.trunks, writer := u.writer } ∧
      (∀ x, u.window x =
        { enabled := false, setUp := (s.window x).setUp, parse := .hunt, intake := BitVec.ofNat 28 (s.windowBase x)
          lead := [], textCount := 0, extents := [], stories := [], protect := none, absorbed := 0
          reserveLow := false }) ∧
      (∀ h, u.story h = { generation := (s.story h).generation }) ∧
      (∀ d, u.desk d =
        { isOpen := false, queue := [], directNext := none, savedFollowOn := none, preempt := false, context := none
          saved := none, line := false, farStop := false, held := false, buffer := [], shift := .letters, column := 0
          epoch := (s.desk d).epoch + 1, underruns := 0, staging0 := .empty, staging1 := .empty }) ∧
      (∀ x, u.trunk x =
        { transmitter := finishing (s.trunk x).transmitter
          receiver :=
            { fresh (s.trunk x).receiver .off false with capture := none, errorCount := 0 }
          bringUp := { state := .down, received := none, farStation := none, page := none, linkTimer := none
                       limitTimer := none } }) ∧
      u.writer =
        { queue := [], writeIndex := 0, consumed := 0, missed := 0, alert := false, notice := false
          storeFault := false, outstanding := s.writer.outstanding.map (fun o => { o with abandoned := true })
          snapshot := none }

/-- UNKNOWN_COMMAND_CODE, and the refusals common to all commands (R32 steps 1 to 3): a code of no command is refused with
BAD_ARGUMENT; a command not accepted in the mode with WRONG_MODE; a target or argument out of its range with BAD_ARGUMENT.
A refused command changes nothing but the report. -/
def Obligations.CommandRefusedByFirstCheck : Prop :=
  (∀ (s : State) (w : CommandWord) (more : List Action), Head s (.command w) more → (∀ k, w.code ≠ codeOf k) →
    exec .unknownCommandCode s = .next (itemDone more (s.report (refusal s w 2 false)))) ∧
  (∀ (s : State) (w : CommandWord) (more : List Action) (k : CommandKind), Head s (.command w) more →
    w.code = codeOf k → accepted k s.mode = false →
    exec (stepOf k) s = .next (itemDone more (s.report (refusal s w 1 (ofStory k))))) ∧
  ∀ (s : State) (w : CommandWord) (more : List Action) (k : CommandKind), Head s (.command w) more →
    w.code = codeOf k → accepted k s.mode = true → ¬ InRange s w k →
    exec (stepOf k) s = .next (itemDone more (s.report (refusal s w 2 (ofStory k))))

/-! ### Commands on stories and desks -/

/-- RELEASE in RUN (R65): STALE for another generation, WRONG_STATE unless HELD; otherwise the story is released, with the
flag and room tests that follow, and it is then LIVE or SPENT. -/
def Obligations.ReleaseOfHeldStory : Prop :=
  ∀ (s : State) (w : CommandWord) (more : List Action) (h : HandleId), Head s (.command w) more → w.code = 0x10 →
    s.mode = .run → w.handle.toNat = h.val →
    ((s.story h).generation ≠ w.generation →
      exec .release s = .next (itemDone more (s.report (refusal s w 3 true)))) ∧
    ((s.story h).generation = w.generation → (s.story h).state ≠ .held →
      exec .release s = .next (itemDone more (s.report (refusal s w 4 true)))) ∧
    ((s.story h).generation = w.generation → (s.story h).state = .held →
      exec .release s = .next (itemDone more ((s.releaseStory h).testFlags.testRooms)) ∧
      OnlyStories s ((s.releaseStory h).testFlags.testRooms) ∧
      (((s.releaseStory h).story h).state = .live ∨ ((s.releaseStory h).story h).state = .spent))

/-- KILL in RUN (R75, R76, R79): STALE and WRONG_STATE refusals; a HELD story without holders becomes FREE with its
generation kept, and STORY_DONE is reported for it with final state KILLED and the numbers of its marks, the flag and room
tests following; a LIVE or SPENT one becomes KILLED or FREE, and its entry leaves every queue where its mark was QUEUED. That
the freed record holds window 0, agency 0 and origin 0 is the model's choice (log entry 33). -/
def Obligations.KillRetiresStory : Prop :=
  ∀ (s : State) (w : CommandWord) (more : List Action) (h : HandleId), Head s (.command w) more → w.code = 0x11 →
    s.mode = .run → w.handle.toNat = h.val →
    ((s.story h).generation ≠ w.generation → exec .kill s = .next (itemDone more (s.report (refusal s w 3 true)))) ∧
    ((s.story h).generation = w.generation →
      (s.story h).state ≠ .held → (s.story h).state ≠ .live → (s.story h).state ≠ .spent →
      exec .kill s = .next (itemDone more (s.report (refusal s w 4 true)))) ∧
    ((s.story h).generation = w.generation → (s.story h).state = .held → (s.story h).holders = 0 →
      ∃ u : State, exec .kill s = .next (itemDone more u) ∧ u.story h = { generation := (s.story h).generation } ∧
        OnlyStories s u ∧ u.completion = s.completion.erase h ∧
        (∃ v : State, u = (v.testFlags).testRooms ∧
          v.writer = (s.report (doneRecord s h 5)).writer) ∧
        ((s.window (s.story h).window).stories.Nodup → h ∉ (u.window (s.story h).window).stories)) ∧
    ((s.story h).generation = w.generation → (s.story h).state = .live ∨ (s.story h).state = .spent →
      ∃ u : State, exec .kill s = .next (itemDone more u) ∧
        OnlyStories s u ∧ ((u.story h).state = .killed ∨ (u.story h).state = .free) ∧
        ∀ d, s.markAt h d = .queued → (∀ f, (s.desk d).directNext = some f → f.handle ≠ h) →
          (∀ f, (s.desk d).savedFollowOn = some f → f.handle ≠ h) →
          (u.desk d).queue = (s.desk d).queue.filter fun e => decide (e.handle ≠ h))

/-- OPEN_DESK, HOLD_DESK and FREE_DESK in RUN (R84, R98, R99): WRONG_STATE when there is nothing to change; otherwise the
one field changes, and the preempt flag stands exactly when the four conditions of R94 hold. -/
def Obligations.DeskSwitchesChangeOneField : Prop :=
  ∀ (s : State) (w : CommandWord) (more : List Action) (d : DeskId), Head s (.command w) more → s.mode = .run →
    TargetDesk w d →
    (w.code = 0x20 →
      ((s.desk d).isOpen = true → exec .openDesk s = .next (itemDone more (s.report (refusal s w 4 false)))) ∧
      ((s.desk d).isOpen = false → ∃ (u : State) (b : Bool), exec .openDesk s = .next (itemDone more u) ∧
        u = s.onDesk d (fun k => { k with isOpen := true, preempt := b }) ∧ (b = true ↔ FlashWaits u d))) ∧
    (w.code = 0x22 →
      ((s.desk d).held = true → exec .holdDesk s = .next (itemDone more (s.report (refusal s w 4 false)))) ∧
      ((s.desk d).held = false → exec .holdDesk s = .next (itemDone more
        (s.onDesk d fun k => { k with held := true, preempt := false })))) ∧
    (w.code = 0x23 →
      ((s.desk d).held = false → exec .freeDesk s = .next (itemDone more (s.report (refusal s w 4 false)))) ∧
      ((s.desk d).held = true → ∃ (u : State) (b : Bool), exec .freeDesk s = .next (itemDone more u) ∧
        u = s.onDesk d (fun k => { k with held := false, preempt := b }) ∧ (b = true ↔ FlashWaits u d)))

/-- CLOSE_DESK in RUN (R85): WRONG_STATE when CLOSED; otherwise the desk is emptied and CLOSED, its pause-reason set, shift
state, column and underrun count kept, its epoch raised when it had a current item; every other desk stands. The ACTIVE mark of
a current STORY item and of the saved context becomes CUT, the mark of every follow-on and queued story DROPPED, unless the
story is then FREE, and each place that named a story releases a holder of it. DESK_CLOSED is the first report: the number of
entries removed, and the handle and generation of the current item. Of an empty desk only it and the room tests follow; that
its generation byte is FFh when there was no current item is log entry 14. -/
def Obligations.CloseDeskEmptiesIt : Prop :=
  ∀ (s : State) (w : CommandWord) (more : List Action) (d : DeskId), Head s (.command w) more → w.code = 0x21 →
    s.mode = .run → TargetDesk w d →
    ((s.desk d).isOpen = false → exec .closeDesk s = .next (itemDone more (s.report (refusal s w 4 false)))) ∧
    ((s.desk d).isOpen = true → ∃ u : State, exec .closeDesk s = .next (itemDone more u) ∧
      OnlyStories s u ∧
      u.desk d =
        { isOpen := false, queue := [], directNext := none, savedFollowOn := none, preempt := false, context := none
          saved := none, line := (s.desk d).line, farStop := (s.desk d).farStop, held := (s.desk d).held, buffer := []
          shift := (s.desk d).shift, column := (s.desk d).column
          epoch := if (s.desk d).context.isSome then (s.desk d).epoch + 1 else (s.desk d).epoch
          underruns := (s.desk d).underruns, staging0 := .empty, staging1 := .empty } ∧
      (∀ d', d' ≠ d → u.desk d' = s.desk d') ∧
      (∀ e ∈ (s.desk d).queue, e.kind = .story → u.markAt e.handle d = .dropped ∨ (u.story e.handle).state = .free) ∧
      (∀ h, Follows (s.desk d).directNext h ∨ Follows (s.desk d).savedFollowOn h →
        u.markAt h d = .dropped ∨ (u.story h).state = .free) ∧
      (∀ c, (s.desk d).context = some c → c.kind = .story → s.markAt c.handle d = .active → ¬ Waits (s.desk d) c.handle →
        u.markAt c.handle d = .cut ∨ (u.story c.handle).state = .free) ∧
      (∀ v, (s.desk d).saved = some v → s.markAt v.handle d = .active ∨ s.markAt v.handle d = .cut →
        ¬ Waits (s.desk d) v.handle → u.markAt v.handle d = .cut ∨ (u.story v.handle).state = .free) ∧
      (∀ h, (u.story h).state ≠ .free → (u.story h).holders = (s.story h).holders - placesOf (s.desk d) h) ∧
      (s.ringCode ≠ 0 → s.writer.queue.length < 16 →
        ∃ later, u.writer.queue = s.writer.queue ++ closedRecord s d :: later) ∧
      ((s.desk d).context = none → (s.desk d).saved = none → (s.desk d).queue = [] → (s.desk d).directNext = none →
        (s.desk d).savedFollowOn = none →
        u = ((s.onDesk d fun k =>
              { k with isOpen := false, preempt := false, buffer := [], staging0 := .empty, staging1 := .empty }).report
            { kind := .deskClosed, subject := byte (d.val + 1), handle := 0xFF, generation := 0xFF, serial := 0
              minute := s.clock.minute, detail := [0] }).testRooms))

/-! ### Commands on trunks and windows -/

/-- TRUNK_UP, TRUNK_DOWN and CLEAR_TRUNK_ERRORS in RUN (R28, R144, R145, R158, R167, R175, R183, R186). TRUNK_UP is
refused with WRONG_STATE out of DOWN or with slot count 0, and otherwise enters SEARCH with its limit timer, its first
bring-up frame and a fresh measurement, or BROKEN when the line is in break. TRUNK_DOWN is refused in DOWN, and
otherwise clears the controller, turns the receiver OFF and ends the framing with its symbol; from UP the desks of the
trunk hold LINE and lose FAR_STOP, and no other desk changes. CLEAR_TRUNK_ERRORS clears the capture and the count. That the
entry to SEARCH clears the miss count and the switch-window count is the model's choice (log entry 43). -/
def Obligations.TrunkUpDownAndClear : Prop :=
  ∀ (s : State) (w : CommandWord) (more : List Action) (u : TrunkId), Head s (.command w) more → s.mode = .run →
    w.target.toNat = u.val →
    (w.code = 0x30 →
      ((s.trunk u).bringUp.state ≠ .down ∨ s.slotCount u = 0 →
        exec .trunkUp s = .next (itemDone more (s.report (refusal s w 4 false)))) ∧
      ((s.trunk u).bringUp.state = .down → s.slotCount u ≠ 0 →
        exec .trunkUp s = .next (itemDone more (s.onTrunk u fun k =>
          { transmitter :=
              match k.transmitter with
              | none => some (firstSymbol s u (.bringUp (s.baseWord u false)))
              | some f => some f
            receiver := fresh k.receiver (if k.receiver.inBreak then .off else .measuring) false
            bringUp :=
              { k.bringUp with
                state := if k.receiver.inBreak then .broken else .search
                received := none, page := none, linkTimer := none
                limitTimer := if s.bringUpLimit u = 0 then none else some 0 } })))) ∧
    (w.code = 0x31 →
      ((s.trunk u).bringUp.state = .down →
        exec .trunkDown s = .next (itemDone more (s.report (refusal s w 4 false)))) ∧
      ((s.trunk u).bringUp.state ≠ .down → ∃ t : State, exec .trunkDown s = .next (itemDone more t) ∧
        t = { s.onTrunk u (fun k =>
                { transmitter := finishing k.transmitter, receiver := fresh k.receiver .off k.receiver.mismatch
                  bringUp := { state := .down, received := none, farStation := none, page := none, linkTimer := none
                               limitTimer := none } }) with
              desks := t.desks } ∧
        (∀ d, (s.trunk u).bringUp.state = .up → OnTrunk s u d →
          t.desk d = { s.desk d with line := true, farStop := false }) ∧
        ∀ d, (s.trunk u).bringUp.state ≠ .up ∨ ¬ OnTrunk s u d → t.desk d = s.desk d)) ∧
    (w.code = 0x32 →
      exec .clearTrunkErrors s = .next (itemDone more (s.onTrunk u fun k =>
        { k with receiver := { k.receiver with capture := none, errorCount := 0 } })))

/-- ENABLE_WINDOW and DISABLE_WINDOW in RUN (R27, R53, R54, R46, R63): their WRONG_STATE refusals; the window ENABLED at
its restart address in HUNT; DISABLED in HUNT, with its OPEN story abandoned, reported and FREE. DISABLED, it also clears a
RING_FULL or TABLE_FULL hold of a write to it, and the freed record any TABLE_FULL hold (R50, R51). The room tests follow.
That the freed record holds window 0, agency 0 and origin 0 is the model's choice (log entry 33). -/
def Obligations.WindowEnableAndDisable : Prop :=
  ∀ (s : State) (w : CommandWord) (more : List Action) (v : WindowId) (a : Addr) (still : Option Hold),
    Head s (.command w) more → s.mode = .run → w.target.toNat = v.val →
    still = (match s.hold with
      | some ⟨.ringFull x, _, _⟩ => if x = v then none else s.hold
      | some ⟨.tableFull x _, _, _⟩ => if x = v ∨ s.openStory v ≠ none then none else s.hold
      | h => h) →
    (w.code = 0x40 → w.value.toNat < s.windowSize v → a = BitVec.ofNat 28 (s.windowBase v + w.value.toNat) →
      ((s.window v).setUp = false ∨ (s.window v).enabled = true ∨ w.value.toNat % 8 ≠ 0 ∨ s.inHeldSpan v a = true →
        exec .enableWindow s = .next (itemDone more (s.report (refusal s w 4 false)))) ∧
      ((s.window v).setUp = true → (s.window v).enabled = false → w.value.toNat % 8 = 0 → s.inHeldSpan v a = false →
        exec .enableWindow s = .next (itemDone more ((s.onWindow v fun k =>
          { k with enabled := true, intake := a, parse := .hunt, lead := [], textCount := 0, extents := [] }).testRooms)))) ∧
    (w.code = 0x41 →
      ((s.window v).enabled = false →
        exec .disableWindow s = .next (itemDone more (s.report (refusal s w 4 false)))) ∧
      ((s.window v).enabled = true → s.openStory v = none →
        exec .disableWindow s = .next (itemDone more ((({ s with hold := still } : State).onWindow v fun k =>
          { k with enabled := false, parse := .hunt }).testRooms))) ∧
      (∀ h, (s.window v).enabled = true → s.openStory v = some h → (s.story h).window = v →
        exec .disableWindow s = .next (itemDone more
          (((({ s with completion := s.completion.erase h, hold := still } : State).report
            (naming s .storyAbandoned (byte v.val) h (17 :: leBytes 4 (s.story h).origin.toNat))).onStory h fun r =>
              { generation := r.generation }).onWindow v fun k =>
                { k with
                  enabled := false, parse := .hunt, stories := k.stories.erase h, lead := [], textCount := 0
                  extents := [] }).testRooms)))

/-- The reserve-low latch (R52): below the threshold, reserve × size / 8, it sets with one WINDOW_LOW report of the room;
once set it makes no other; at or above the threshold it is clear. -/
def Obligations.ReserveLatchReportsOnce : Prop :=
  ∀ (s : State) (w : WindowId),
    (s.room w < s.windowReserve w * s.windowSize w / 8 → (s.window w).reserveLow = false →
      s.testReserve w = (s.onWindow w fun k => { k with reserveLow := true }).report
        (plain s .windowLow (byte w.val) (leBytes 3 (s.room w)))) ∧
    (s.room w < s.windowReserve w * s.windowSize w / 8 → (s.window w).reserveLow = true → s.testReserve w = s) ∧
    (s.windowReserve w * s.windowSize w / 8 ≤ s.room w →
      s.testReserve w = s.onWindow w fun k => { k with reserveLow := false })

/-- CLEAR_WINDOW (R55), SET_CLOCK (R195) and CLEAR_LINE (R192): each changes only what it names and makes no report. In every
state the ALERT and NOTICE pins show their flags at the polarity and drive of general word 1 (R192, Table 2-2): the active
level while the flag is set; while it is clear, the other level of a push-pull line, and nothing of an open-drain one. -/
def Obligations.ClearWindowClockAndLine : Prop :=
  (∀ s : State,
    s.alertPin = driven s.writer.alert (setupByte s.setup 0x0C % 2 = 1) (setupByte s.setup 0x0C / 2 % 2 = 1) ∧
    s.noticePin = driven s.writer.notice (setupByte s.setup 0x0C / 4 % 2 = 1) (setupByte s.setup 0x0C / 8 % 2 = 1)) ∧
  ∀ (s : State) (w : CommandWord) (more : List Action), Head s (.command w) more →
    (w.code = 0x42 → s.mode = .run → ∀ v : WindowId, w.target.toNat = v.val →
      exec .clearWindow s = .next (itemDone more (s.onWindow v fun k => { k with protect := none, absorbed := 0 }))) ∧
    (w.code = 0x50 → w.value.toNat ≤ 1439 →
      exec .setClock s = .next (itemDone more { s with clock := { s.clock with minute := w.value.toNat } })) ∧
    (w.code = 0x52 →
      (w.target = 1 → exec .clearLine s = .next (itemDone more (s.onWriter fun x => { x with alert := false }))) ∧
      (w.target = 2 → exec .clearLine s = .next (itemDone more (s.onWriter fun x => { x with notice := false }))) ∧
      (w.target = 3 → exec .clearLine s = .next
        (itemDone more (s.onWriter fun x => { x with alert := false, notice := false }))))

/-- SNAPSHOT in either mode (R193): BUSY while one is in progress; otherwise the image of the kind is captured, 256 bytes,
and nothing else changes. The general image has 32 bytes of the part, 16 of each window and 24 of each trunk (Table 11-4); a
story page gives 16 handles (Table 11-5) and a desk page 16 desks (Table 11-6), in ascending order, the last 128 bytes of kind
10 being 0. That a cleared record shows window and agency 0 and a desk without a begun TEXT the cursor 0 rests on log entries 33
and 34; bytes of Tables 11-4 and 11-6 whose value is absent are 0 by log entry 38. -/
def Obligations.SnapshotCapturesImage : Prop :=
  (∀ (s : State) (w : CommandWord) (more : List Action), Head s (.command w) more → w.code = 0x51 →
    w.target.toNat ≤ 10 →
    (s.writer.snapshot ≠ none → exec .snapshot s = .next (itemDone more (s.report (refusal s w 5 false)))) ∧
    (s.writer.snapshot = none →
      exec .snapshot s = .next (itemDone more (s.onWriter fun x =>
        { x with snapshot := some { kind := w.target.toNat, image := s.image w.target.toNat, issued := 0 } })))) ∧
  ∀ s : State,
    (∀ k ≤ 10, (s.image k).length = 256) ∧
    (s.image 0).take 0x20 = generalImage s ∧
    (∀ w : WindowId, ((s.image 0).drop (0x20 + 0x10 * w.val)).take 0x10 = windowImage s w) ∧
    (∀ t : TrunkId, ((s.image 0).drop (0xA0 + 0x18 * t.val)).take 0x18 = trunkImage s t) ∧
    (∀ h : HandleId, ((s.image (h.val / 16 + 1)).drop (16 * (h.val % 16))).take 16 = storyImage s h) ∧
    (∀ d : DeskId, ((s.image (d.val / 16 + 9)).drop (16 * (d.val % 16))).take 16 = deskImage s d) ∧
    (s.image 10).drop 128 = List.replicate 128 0

/-! ### Reports and the minute -/

/-- A record handed to the report writer joins the tail of the pending queue, or is lost, when the queue holds 16 records
or there is no ring; a lost one raises the missed count, up to 255, and sets its line as a written record would. A grant
takes the record that joined first, and a full ring loses none (R189). -/
def Obligations.ReportJoinsOrIsLost : Prop :=
  (∀ (s : State) (r : Record), s.writer.queue.length < 16 → s.ringCode ≠ 0 →
    s.report r = { s with writer := { s.writer with queue := s.writer.queue ++ [r] } }) ∧
  (∀ (s : State) (r : Record), 16 ≤ s.writer.queue.length ∨ s.ringCode = 0 →
    s.report r = { s with
      writer :=
        { s.writer with
          missed := if s.writer.missed < 255 then s.writer.missed + 1 else s.writer.missed
          alert := s.writer.alert || (s.kindEnabled r.kind && decide (11 ≤ r.kind.code))
          notice := s.writer.notice || (s.kindEnabled r.kind && decide (r.kind.code ≤ 10)) } }) ∧
  ∀ (s t : State) (r : Record) (more : List Record), s.writer.queue = r :: more →
    exec .reportWriteGrant s = .next t → t.writer.queue = r :: more ∨ t.writer.queue = more

/-- MINUTE_ADVANCE (R66, R194): an edge that is not selected changes nothing; a selected one advances the clock by one, from
1439 to 0, and releases the stories of the completion list that are HELD for the new minute, oldest first, each after its
EMBARGO_RELEASE; the flag and room tests follow. None is then HELD for that minute. When every one of them is of mode NEW,
each is then LIVE or SPENT, and a story HELD for another minute, or for none, stays HELD. That the edge also sets the pin
and its filter is log entry 24, and that the same edge twice advances twice is log entry 23. That an edge that is not selected
leaves the pin and its filter too is log entries 5 and 24: a step without its conditions is no event. -/
def Obligations.MinuteAdvanceReleasesHeld : Prop :=
  ∀ (s : State) (e : Edge) (m : Nat), m = (s.clock.minute + 1) % 1440 →
    (¬ (s.edgeSelect = 3 ∨ (s.edgeSelect = 1 ∧ e = .rising) ∨ (s.edgeSelect = 2 ∧ e = .falling)) →
      exec (.minuteAdvance e) s = .next s) ∧
    (s.edgeSelect = 3 ∨ (s.edgeSelect = 1 ∧ e = .rising) ∨ (s.edgeSelect = 2 ∧ e = .falling) →
      ∃ u t : State, exec (.minuteAdvance e) s = .next t ∧
        u = { s with
          clock :=
            { s.clock with
              minute := m, pin := decide (e = .rising), lastSample := some (decide (e = .rising))
              accepted := some (decide (e = .rising)) } } ∧
        t = ((s.completion.foldl (releaseFor m) u).testFlags).testRooms ∧ OnlyStories u t ∧
        (∀ h ∈ s.completion, ¬ ((t.story h).state = .held ∧ (t.story h).embargo = some m)) ∧
        ((∀ h ∈ s.completion, (s.story h).state = .held → (s.story h).embargo = some m → (s.story h).mode = .new) →
          (∀ h ∈ s.completion, (s.story h).state = .held → (s.story h).embargo = some m →
            (t.story h).state = .live ∨ (t.story h).state = .spent) ∧
          ∀ h, (s.story h).state = .held → (s.story h).embargo ≠ some m →
            (t.story h).state = .held ∧ (t.story h).embargo = (s.story h).embargo))
/-! ### Intake and placement -/

/-- TAKE_UPSTREAM_REQUEST of a write of one byte START, in sequence, into an ENABLED window in HUNT with an empty list (R38,
R41, R51, R62): the lowest FREE handle, or else the oldest SPENT story, is given to a new story, OPEN, with its generation
one higher, and the parser is in LEAD; with no entry to give the write is held with TABLE_FULL. -/
def Obligations.StartOpensStory : Prop :=
  (∀ (s : State) (a b : Addr) (beats : List Beat) (w : WindowId) (h : HandleId), InForm a beats.length →
    TakenNow s (.write a beats) → enabledBytes a beats ≠ [] → s.touchedWindow (enabledBytes a beats) = none →
    s.inPage a = false → s.enabledWindow a = some w → (s.window w).stories = [] → (s.window w).parse = .hunt →
    enabledBytes a (beats.map (s.translateBeat w)) = [(b, 0x01)] → (s.window w).intake = b →
    (s.entryToGive = none →
      exec (.takeUpstreamRequest (.write a beats)) s = .next
        { s with
          ownWait := waited s
          port := some ⟨.write a beats, false⟩
          hold := some { cause := .tableFull w b, limit := s.holdLimit, elapsed := 0 } }) ∧
    (s.entryToGive = some h →
      exec (.takeUpstreamRequest (.write a beats)) s = .next
        (((forwarded
          ((({ s with ownWait := waited s, completion := s.completion.erase h } : State).onStory h fun r =>
            { generation := r.generation + 1, state := .opened, window := w, agency := s.windowAgency w
              origin := b }).onWindow w fun k =>
            { k with
              stories := [h], parse := .lead, lead := [], textCount := 0, extents := []
              intake := s.nextInWindow w b })
          (.write a (beats.map (s.translateBeat w))) .write).testFlags).testRooms))) ∧
  ∀ s : State,
    (∀ h, (s.story h).state = .free → (∀ g, g < h → (s.story g).state ≠ .free) → s.entryToGive = some h) ∧
    ((∀ g, (s.story g).state ≠ .free) →
      s.entryToGive = s.completion.find? fun h => decide ((s.story h).state = .spent))

/-- The check of a lead (R43, Table 3-4): it must have exactly six FS bytes, or fails with FIELD_COUNT; its fields are then
checked in order and the first that breaks its form gives the reason. A number has at least one digit and no more than its
field allows, leading zeros with the rest, so a serial is below 10000. The class and the mode are one capital letter each. The
selector is the number 0, or numbers of desks with commas between, none twice. The slug has at most 24 characters of 20h to
7Eh. The reference is empty for mode NEW and otherwise a number of 1 to 4 digits. The embargo is empty or HHMM, the minute
HH × 60 + MM. -/
def Obligations.LeadCheckedByFields : Prop :=
  (∀ lead : List Byte, checkLead lead = .error .fieldCount ↔ lead.count 0x1F ≠ 6) ∧
  (∀ f1 f2 f3 f4 f5 f6 f7 : List Byte, (∀ f ∈ [f1, f2, f3, f4, f5, f6, f7], (0x1F : Byte) ∉ f) →
    checkLead (f1 ++ 0x1F :: f2 ++ 0x1F :: f3 ++ 0x1F :: f4 ++ 0x1F :: f5 ++ 0x1F :: f6 ++ 0x1F :: f7) =
      match numberOf 4 f1, classOf f2, selectorOf f3, slugOf f4, modeOf f5 with
      | none, _, _, _, _ => .error .badSerial
      | _, none, _, _, _ => .error .badClass
      | _, _, none, _, _ => .error .badDesk
      | _, _, _, none, _ => .error .badSlug
      | _, _, _, _, none => .error .badMode
      | some serial, some cls, some selector, some slug, some mode =>
        match referenceOf mode f6, embargoOf f7 with
        | none, _ => .error .badReference
        | _, none => .error .badEmbargo
        | some reference, some embargo => .ok ⟨serial, cls, selector, slug, mode, reference, embargo⟩) ∧
  (∀ (k n : Nat) (f : List Byte), numberOf k f = some n →
    1 ≤ f.length ∧ f.length ≤ k ∧ n < 10 ^ k ∧ ∀ b ∈ f, 0x30 ≤ b.toNat ∧ b.toNat ≤ 0x39) ∧
  (∀ (k n : Nat) (f : List Byte), numberOf k f = some n ↔
    1 ≤ f.length ∧ f.length ≤ k ∧ (∀ b ∈ f, 0x30 ≤ b.toNat ∧ b.toNat ≤ 0x39) ∧
      n = f.foldl (fun m b => 10 * m + (b.toNat - 0x30)) 0) ∧
  (∀ (f : List Byte) (c : StoryClass), classOf f = some c ↔ f = [classLetter c]) ∧
  (∀ (f : List Byte) (m : StoryMode), modeOf f = some m ↔ f = [modeLetter m]) ∧
  (∀ f : List Byte, (selectorOf f = some .all ↔ numberOf 2 f = some 0) ∧
    ∀ set : List DeskId, selectorOf f = some (.desks set) ↔
      ∃ items : List (List Byte), items ≠ [] ∧ f = [0x2C].intercalate items ∧ set.Nodup ∧
        items.map (numberOf 2) = set.map fun d => some (d.val + 1)) ∧
  (∀ f g : List Byte, slugOf f = some g ↔ g = f ∧ f.length ≤ 24 ∧ ∀ b ∈ f, 0x20 ≤ b.toNat ∧ b.toNat ≤ 0x7E) ∧
  (∀ (f : List Byte) (x : Option Nat),
    (referenceOf .new f = some x ↔ f = [] ∧ x = none) ∧
    ∀ m : StoryMode, m ≠ .new → (referenceOf m f = some x ↔ ∃ n, x = some n ∧ numberOf 4 f = some n)) ∧
  (∀ (f : List Byte) (x : Option Nat), embargoOf f = some x →
    f = [] ∧ x = none ∨ f.length = 4 ∧ ∀ b ∈ f, 0x30 ≤ b.toNat ∧ b.toNat ≤ 0x39) ∧
  embargoOf [] = some none ∧
  ∀ p q r t : Fin 10,
    embargoOf [byte (0x30 + p.val), byte (0x30 + q.val), byte (0x30 + r.val), byte (0x30 + t.val)] =
      if 10 * p.val + q.val ≤ 23 ∧ 10 * r.val + t.val ≤ 59 then
        some (some ((10 * p.val + q.val) * 60 + (10 * r.val + t.val)))
      else none

/-- TAKE_UPSTREAM_REQUEST of a write that an ENABLED window's parser takes (R38 to R46, R50, R63, R64). Without room it is
held with RING_FULL. Out of sequence it is not parsed: a story being read is abandoned and the parser hunts. In sequence its
bytes are read one by one, each in the state that the bytes before it leave. In LEAD a byte joins the lead, but a 97th byte,
START, END and TEXT after a lead that fails its check abandon the story, and TEXT after one that passes records its fields; in
TEXT it joins the text, but START and a 65536th byte abandon the story and END completes it, HELD for another minute or
released; in HUNT and SKIP START opens a story, END returns SKIP to HUNT, and no other byte does anything. A START that then
finds no entry holds the whole write with TABLE_FULL, whatever the parse state the write began in; a START in LEAD or TEXT
always finds one, that of the story it abandons. Each abandonment has its code of Table 3-5. These clauses are the model's
choice: that the window's text count and extents are empty after END is log entry 29; that its lead is kept through TEXT and
empty after END is log entry 40; that the record of an abandoned story holds window 0, agency 0 and origin 0 is log entry
33; that WINDOW_LOW stands behind the other reports of a write out of sequence too is log entry 42. -/
def Obligations.IntakeReadsByState : Prop :=
  (∀ (s : State) (a : Addr) (beats : List Beat) (w : WindowId) (bytes : List (Addr × Byte)) (h : HandleId)
    (more : List HandleId), IntakeTaken s w a beats bytes → (s.window w).stories = h :: more →
    (if s.inSequence w bytes then s.room w ≤ bytes.length else s.afterLast w bytes = (s.story h).origin) →
    exec (.takeUpstreamRequest (.write a beats)) s = .next
      { s with
        ownWait := waited s
        port := some ⟨.write a beats, false⟩
        hold := some { cause := .ringFull w, limit := s.holdLimit, elapsed := 0 } }) ∧
  (∀ (s u : State) (a : Addr) (beats : List Beat) (w : WindowId) (bytes : List (Addr × Byte)),
    IntakeTaken s w a beats bytes → s.inSequence w bytes = false →
    (∀ h more, (s.window w).stories = h :: more → s.afterLast w bytes ≠ (s.story h).origin) →
    u = { s with ownWait := waited s } →
    ((s.window w).parse = .hunt ∨ (s.window w).parse = .skip →
      exec (.takeUpstreamRequest (.write a beats)) s = .next
        (takenIn s w a beats (s.afterLast w bytes) (u.onWindow w fun k => { k with parse := .hunt }))) ∧
    (∀ h, (s.window w).parse = .lead ∨ (s.window w).parse = .text → s.openStory w = some h → (s.story h).window = w →
      exec (.takeUpstreamRequest (.write a beats)) s = .next
        (takenIn s w a beats (s.afterLast w bytes) (abandoned u w h 14 .hunt)))) ∧
  (∀ (s t : State) (a : Addr) (beats : List Beat) (w : WindowId) (bytes : List (Addr × Byte)),
    IntakeTaken s w a beats bytes → s.inSequence w bytes = true →
    (s.window w).stories = [] ∨ bytes.length < s.room w → BytesRead w bytes { s with ownWait := waited s } t →
    exec (.takeUpstreamRequest (.write a beats)) s = .next (takenIn s w a beats (s.afterLast w bytes) t)) ∧
  (∀ (s t : State) (a b : Addr) (beats : List Beat) (w : WindowId) (before after : List (Addr × Byte)),
    IntakeTaken s w a beats (before ++ (b, 0x01) :: after) → s.inSequence w (before ++ (b, 0x01) :: after) = true →
    (s.window w).stories = [] ∨ (before ++ (b, 0x01) :: after).length < s.room w →
    BytesRead w before { s with ownWait := waited s } t → (t.window w).parse = .hunt ∨ (t.window w).parse = .skip →
    t.entryToGive = none →
    exec (.takeUpstreamRequest (.write a beats)) s = .next
      { s with
        ownWait := waited s
        port := some ⟨.write a beats, false⟩
        hold := some { cause := .tableFull w b, limit := s.holdLimit, elapsed := 0 } }) ∧
  ∀ (s : State) (w : WindowId) (h : HandleId) (reason : Nat) (parse : ParseState),
    (abandoned s w h reason parse).entryToGive ≠ none

/-- An insertion request at a desk (R87 to R89): with fewer than 32 entries the new one stands behind the last of equal or
higher class; a full queue refuses it, with DESK_DROP, when its tail's class is equal or higher, and otherwise displaces the
tail and holds 32 entries again. The displaced entry's holder is released and a STORY entry's mark becomes DROPPED, a
KILL_NOTICE entry's marks standing; DESK_DROP with cause DISPLACED names the displacing handle, and a STORY_DONE that results
stands directly behind it. That the displacing handle of a refused entry's DESK_DROP is FFh is log entry 14; that the record
of a displaced story that becomes FREE holds window 0, agency 0 and origin 0 is log entry 33. -/
def Obligations.QueueInsertionByClass : Prop :=
  ∀ (s : State) (d : DeskId) (e : DeskEntry),
    ((s.desk d).queue.length < 32 → ∃ q u, Placed e (s.desk d).queue q ∧
      u = (s.onDesk d fun k => { k with queue := q }).onStory e.handle (fun r => { r with holders := r.holders + 1 }) ∧
      (e.kind = .story → s.insertEntry d e = u.setMark e.handle d .queued) ∧
      (e.kind = .killNotice → s.insertEntry d e = u)) ∧
    (∀ older tail, 32 ≤ (s.desk d).queue.length → (s.desk d).queue = older ++ [tail] →
      (tail.cls.code ≤ e.cls.code → ∃ u, s.insertEntry d e = u.report
          (naming s .deskDrop (byte (d.val + 1)) e.handle [byte e.kind.code, byte e.cls.code, 2, 0xFF]) ∧
        (e.kind = .story → u = s.setMark e.handle d .dropped) ∧ (e.kind = .killNotice → u = s)) ∧
      (e.cls.code < tail.cls.code → ∃ (q : List DeskEntry) (gone dropped left u : State), Placed e older q ∧
        gone = (s.onDesk d fun k => { k with queue := older }).onStory tail.handle
          (fun r => { r with holders := r.holders - 1 }) ∧
        (tail.kind = .story → dropped = gone.setMark tail.handle d .dropped) ∧
        (tail.kind = .killNotice → dropped = gone) ∧
        left = settled (dropped.report (naming s .deskDrop (byte (d.val + 1)) tail.handle
          [byte tail.kind.code, byte tail.cls.code, 1, byte e.handle.val])) tail.handle ∧
        u = (left.onDesk d fun k => { k with queue := q }).onStory e.handle (fun r => { r with holders := r.holders + 1 }) ∧
        (e.kind = .story → s.insertEntry d e = u.setMark e.handle d .queued) ∧
        (e.kind = .killNotice → s.insertEntry d e = u)))

/-- The release of a story of mode NEW (R67, R69, R78), when no queue is full: it is queued, by class, at the desks of its
selector that are OPEN and refuse neither its class nor its agency, and at no other; it is LIVE while it is queued
anywhere, and SPENT at once when it is queued nowhere. -/
def Obligations.NewStoryPlacedAtKeptDesks : Prop :=
  ∀ (s : State) (h : HandleId) (kept : DeskId → Prop), (s.story h).mode = .new → (∀ d, (s.desk d).queue.length < 32) →
    (∀ d, kept d ↔ ((s.story h).selector = .all ∨ ∃ set, (s.story h).selector = .desks set ∧ d ∈ set) ∧
      (s.desk d).isOpen = true ∧ s.classRefused d (s.story h).cls = false ∧
      s.agencyRefused d (s.story h).agency = false) →
    (∀ d, kept d → Placed { handle := h, kind := .story, cls := (s.story h).cls } (s.desk d).queue
      ((s.releaseStory h).desk d).queue ∧ (s.releaseStory h).markAt h d = .queued) ∧
    (∀ d, ¬ kept d → (s.releaseStory h).desk d = s.desk d ∧ (s.releaseStory h).markAt h d = s.markAt h d) ∧
    ((∃ d, kept d) → ((s.releaseStory h).story h).state = .live) ∧
    ((∀ d, ¬ kept d) → (∀ d, s.markAt h d = .absent) → (s.story h).holders = 0 →
      ((s.releaseStory h).story h).state = .spent)

/-- Cut orders (R119, R120), the placement of write-throughs and kills by the target's mark at each desk (R72, R74, R76), the
release of a write-through or agency kill (R67, R68, R71, R73), and the host's KILL of a story ACTIVE or DONE at a desk
(R76). A cut of the current item stops it, marks it CUT, reports it, puts the follow-on in the direct next place and begins
the cut notice, or ends the item when that is left out; a cut of the saved context records the notice there. -/
def Obligations.CutsWriteThroughsAndKills : Prop :=
  (∀ (s u v : State) (d : DeskId) (c : SendContext) (notice : NoticeKind) (follow : Option HandleId),
    (s.desk d).context = some c → c.kind = .story →
    u = ((s.onDesk d stopped).setMark c.handle d .cut).report
      (naming s .storyCut (byte (d.val + 1)) c.handle [byte notice.code, 0, byte c.segment.code, followByte follow]) →
    (follow = none → v = u) →
    (∀ w, follow = some w → v = (tookIn u d w).onDesk d fun k =>
      { k with directNext := some { handle := w, cls := (s.story w).cls } }) →
    (∀ y, goesOn v d c (.notice notice c.handle .finish) y →
      s.cutOrder d c.handle notice follow = v.onDesk d fun k => { k with context := some y }) ∧
    (LeftOut s notice → s.cutOrder d c.handle notice follow =
      (v.onStory c.handle fun r => { r with holders := r.holders - 1 }).onDesk d fun k => { k with context := none })) ∧
  (∀ (s u : State) (d : DeskId) (x : SavedContext) (notice : NoticeKind) (follow : Option HandleId),
    (s.desk d).saved = some x → (∀ c, (s.desk d).context = some c → c.handle ≠ x.handle ∨ c.kind ≠ .story) →
    u = ((s.onDesk d fun k => { k with saved := some { x with cutNotice := some notice } }).setMark x.handle d .cut).report
      (naming s .storyCut (byte (d.val + 1)) x.handle [byte notice.code, 1, byte x.resume.code, followByte follow]) →
    (follow = none → s.cutOrder d x.handle notice follow = u) ∧
    (∀ w, follow = some w → s.cutOrder d x.handle notice follow = (tookIn u d w).onDesk d fun k =>
      { k with savedFollowOn := some { handle := w, cls := (s.story w).cls } })) ∧
  (∀ (s removed replaced : State) (d : DeskId) (w t : HandleId) (f : FollowOn) (m : Mark), m = s.markAt t d →
    f = { handle := w, cls := (s.story w).cls } →
    (Follows (s.desk d).directNext t →
      removed = gaveUp (s.onDesk d fun k => { k with directNext := none }) d t ∧
      replaced = tookIn (gaveUp (s.onDesk d fun k => { k with directNext := some f }) d t) d w) →
    (¬ Follows (s.desk d).directNext t → Follows (s.desk d).savedFollowOn t →
      removed = gaveUp (s.onDesk d fun k => { k with savedFollowOn := none }) d t ∧
      replaced = tookIn (gaveUp (s.onDesk d fun k => { k with savedFollowOn := some f }) d t) d w) →
    (¬ Follows (s.desk d).directNext t → ¬ Follows (s.desk d).savedFollowOn t →
      removed = gaveUp (s.onDesk d fun k => { k with queue := k.queue.filter fun e => decide (e.handle ≠ t) }) d t ∧
      replaced = tookIn (gaveUp (s.onDesk d fun k =>
        { k with queue := k.queue.map fun e => if e.handle = t then entryOf s w else e }) d t) d w) →
    ((s.desk d).isOpen = false → State.placeWriteThruAt w t s d = s ∧ State.placeKillAt w t s d = s) ∧
    ((s.desk d).isOpen = true →
      (m = .queued → State.placeKillAt w t s d = removed ∧
        State.placeWriteThruAt w t s d =
          if (s.story w).cls = (s.story t).cls then replaced else removed.insertEntry d (entryOf s w)) ∧
      (m = .active → State.placeKillAt w t s d = s.cutOrder d t .kill (some w) ∧
        State.placeWriteThruAt w t s d = s.cutOrder d t .correction (some w)) ∧
      (m = .done → State.placeKillAt w t s d = s.insertEntry d (entryOf s w) ∧
        State.placeWriteThruAt w t s d = s.insertEntry d (entryOf s w)) ∧
      (m = .absent ∨ m = .dropped ∨ m = .cut → State.placeKillAt w t s d = s ∧
        (Keeps s w d → State.placeWriteThruAt w t s d = s.insertEntry d (entryOf s w)) ∧
        (¬ Keeps s w d → State.placeWriteThruAt w t s d = s))) ∧
    (m = .queued → State.hostKillAt t s d = removed) ∧
    (m = .active → State.hostKillAt t s d = s.cutOrder d t .kill none) ∧
    (m = .done → State.hostKillAt t s d = if (s.desk d).isOpen then
      s.insertEntry d { handle := t, kind := .killNotice, cls := .bulletin } else s) ∧
    (m = .absent ∨ m = .dropped ∨ m = .cut → State.hostKillAt t s d = s)) ∧
  (∀ (s : State) (w t : HandleId) (older newer : List HandleId), (s.story w).mode ≠ .new →
    s.completion = older ++ t :: newer → Qualifies s w t → (∀ x ∈ newer, ¬ Qualifies s w x) →
    ((s.releaseStory w).story w).refHandle = some (t, (s.story t).generation) ∧
    ((s.story w).mode = .writeThru →
      (((s.releaseStory w).story t).state = .superseded ∨ ((s.releaseStory w).story t).state = .free) ∧
      ((s.story t).state = .held → (∀ d, (s.desk d).queue.length < 32) →
        ∀ d, (Keeps s w d → Placed (entryOf s w) (s.desk d).queue ((s.releaseStory w).desk d).queue) ∧
          (¬ Keeps s w d → (s.releaseStory w).desk d = s.desk d))) ∧
    ((s.story w).mode = .kill →
      (((s.releaseStory w).story t).state = .killed ∨ ((s.releaseStory w).story t).state = .free) ∧
      ((s.story t).state = .held → (s.releaseStory w).desks = s.desks))) ∧
  (∀ (s : State) (w : HandleId), (s.story w).mode ≠ .new → (∀ x ∈ s.completion, ¬ Qualifies s w x) →
    (s.ringCode ≠ 0 → s.writer.queue.length < 16 →
      ∃ more, (s.releaseStory w).writer.queue = s.writer.queue ++
        naming s .referenceUnknown (byte (s.story w).window.val) w (leBytes 2 ((s.story w).refSerial.getD 0)) :: more) ∧
    ((s.story w).mode = .writeThru → (∀ d, (s.desk d).queue.length < 32) →
      ∀ d, (Keeps s w d → Placed (entryOf s w) (s.desk d).queue ((s.releaseStory w).desk d).queue) ∧
        (¬ Keeps s w d → (s.releaseStory w).desk d = s.desk d)) ∧
    ((s.story w).mode = .kill → (s.releaseStory w).desks = s.desks)) ∧
  ∀ (s : State) (x : CommandWord) (more : List Action) (t : HandleId) (d : DeskId), Head s (.command x) more →
    x.code = 0x11 → s.mode = .run → x.handle.toNat = t.val → (s.story t).generation = x.generation →
    (s.story t).state = .live ∨ (s.story t).state = .spent →
    ∃ u : State, exec .kill s = .next (itemDone more u) ∧ OnlyStories s u ∧
      (∀ c, s.markAt t d = .active → (s.desk d).context = some c → c.handle = t → c.kind = .story →
        (u.markAt t d = .cut ∨ (u.story t).state = .free) ∧
        (∀ y, goesOn (s.onDesk d stopped) d c (.notice .kill t .finish) y →
          u.desk d = { stopped (s.desk d) with context := some y, preempt := false }) ∧
        (LeftOut s .kill → u.desk d = { stopped (s.desk d) with context := none, preempt := false })) ∧
      (s.markAt t d = .done → (s.desk d).isOpen = true → (s.desk d).queue.length < 32 →
        Placed { handle := t, kind := .killNotice, cls := .bulletin } (s.desk d).queue (u.desk d).queue)

/-! ### Desk senders -/

/-- TAKE_NEXT_ITEM at a desk (R93, R96, R115): an OPEN desk without a current item and not HELD takes the direct next item,
else the saved context, else the queue head; the mark of a STORY item from its place or the queue becomes ACTIVE, and the item
begins with its HEADER. A saved context that was not cut is resumed behind a RESUME notice, or at once where that is left out;
one that was cut sends its cut notice, its follow-on moving to the direct next place, and a KILL_NOTICE item its notice; where
the notice is left out the item ends. Otherwise nothing is taken. The flag and room tests follow. That the step presented
where nothing can be taken changes nothing but those tests is log entries 5 and 31; that the cursor is 0 while a notice comes
first is log entry 34; that the record of a story that becomes FREE by an item's end holds window 0, agency 0 and origin 0 is
log entry 33. -/
def Obligations.TakeNextItemInOrder : Prop :=
  ∀ (s : State) (d : DeskId),
    ((s.desk d).isOpen = false ∨ (s.desk d).context ≠ none ∨ (s.desk d).held = true ∨
      ((s.desk d).directNext = none ∧ (s.desk d).saved = none ∧ (s.desk d).queue = []) →
      exec (.takeNextItem d) s = .next ((s.testFlag d).testRooms)) ∧
    ((s.desk d).isOpen = true → (s.desk d).context = none → (s.desk d).held = false →
      (∀ f, (s.desk d).directNext = some f →
        exec (.takeNextItem d) s = .next ((((s.onDesk d fun k =>
          { k with
            directNext := none
            context := some (startOf s d f.handle .story .header (s.headerLayout f.handle)) }).setMark f.handle d
          .active).testFlag d).testRooms)) ∧
      (∀ v, (s.desk d).directNext = none → (s.desk d).saved = some v → v.cutNotice = none → s.phrase 5 ≠ [] →
        exec (.takeNextItem d) s = .next (((s.onDesk d fun k =>
          { k with
            saved := none
            context := some (startOf s d v.handle .story
              (.notice .resume v.handle (match v.resume with
                | .header => .header
                | .text o => .text o))
              (s.noticeLayout .resume v.handle)) }).testFlag d).testRooms)) ∧
      (∀ v u first, (s.desk d).directNext = none → (s.desk d).saved = some v →
        (∀ n, v.cutNotice = some n → first = .notice n v.handle .finish ∧ u = s.onDesk d fun k =>
          { k with saved := none, directNext := k.savedFollowOn, savedFollowOn := none }) →
        (v.cutNotice = none → first = .notice .resume v.handle (match v.resume with
            | .header => .header
            | .text o => .text o) ∧
          u = s.onDesk d fun k => { k with saved := none }) →
        (∀ y, goesOn u d (startOf s d v.handle .story .header []) first y →
          exec (.takeNextItem d) s = .next (((u.onDesk d fun k => { k with context := some y }).testFlag d).testRooms)) ∧
        (endsAt s first → exec (.takeNextItem d) s = .next (((ended u d v.handle).testFlag d).testRooms))) ∧
      (∀ e more, (s.desk d).directNext = none → (s.desk d).saved = none → (s.desk d).queue = e :: more →
        (e.kind = .killNotice → s.phrase 6 = [] →
          exec (.takeNextItem d) s = .next
            (((ended (s.onDesk d fun k => { k with queue := more }) d e.handle).testFlag d).testRooms)) ∧
        (e.kind = .story →
          exec (.takeNextItem d) s = .next ((((s.onDesk d fun k =>
            { k with
              queue := more
              context := some (startOf s d e.handle .story .header (s.headerLayout e.handle)) }).setMark e.handle d
            .active).testFlag d).testRooms)) ∧
        (e.kind = .killNotice → s.phrase 6 ≠ [] →
          exec (.takeNextItem d) s = .next (((s.onDesk d fun k =>
            { k with
              queue := more
              context := some (startOf s d e.handle .killNotice (.notice .killNotice e.handle .finish)
                (s.noticeLayout .killNotice e.handle)) }).testFlag d).testRooms))))

/-- COMPOSE_GROUP at a desk (R107 to R116, R137): a group with room joins the buffer whole, converted by R109 and R110, and
the next one follows; the last group of a trailer, or of a notice whose continuation is END, carries the end tag; after the
last group of a header comes TEXT, and after that of any other notice its continuation; a text byte moves the cursor on, the
last one to TRAILER; a resumed TEXT begins with its opening group. A group without room and a text byte that is not staged
wait. A group has at most 4 codes. When the flash break is due the step makes it instead (R122; log entry 12). That the step
presented where nothing can be composed changes nothing but the flag and room tests it makes is log entries 5 and 31. A
continuation that is itself a notice is one that was interrupted; where its phrase has been emptied since, it is left out, and
where END follows the item ends there: log entry 26. That the record of a story that becomes FREE by that holds window 0,
agency 0 and origin 0 is log entry 33. -/
def Obligations.ComposeGroupIsWhole : Prop :=
  (∀ (s : State) (d : DeskId) (c done : SendContext) (g : Group) (rest : List Group) (codes : GroupCodes) (u : State),
    (s.desk d).context = some c → (s.desk d).preempt = false ∨ c.openingDone = false ∨ ¬ FlashWaits s d →
    c.segment ≠ .text → c.layout = g :: rest →
    codes = s.groupCodes c.columnLimit ⟨(s.desk d).shift, (s.desk d).column⟩ g →
    u = s.onDesk d (fun k => placed k codes) → done = { c with layout := [], openingDone := true } →
    (8 < (s.desk d).buffer.length + codes.codes.length →
      exec (.composeGroup d) s = .next ((s.testFlag d).testRooms)) ∧
    ((s.desk d).buffer.length + codes.codes.length ≤ 8 → rest ≠ [] →
      exec (.composeGroup d) s = .next (((u.onDesk d fun k =>
        { k with context := some { c with layout := rest, openingDone := true } }).testFlag d).testRooms)) ∧
    (∀ x, (s.desk d).buffer.length + codes.codes.length ≤ 8 → rest = [] →
      c.segment = .trailer ∨ (∃ k h, c.segment = .notice k h .finish) → codes.codes.getLast? = some x →
      exec (.composeGroup d) s = .next (((u.onDesk d fun k =>
        { k with
          buffer := (s.desk d).buffer ++ codes.codes.dropLast.map (fun y => ⟨y, false⟩) ++ [⟨x, true⟩]
          context := some done }).testFlag d).testRooms)) ∧
    ((s.desk d).buffer.length + codes.codes.length ≤ 8 → rest = [] → c.segment = .header →
      exec (.composeGroup d) s = .next (((u.onDesk d fun k =>
        { k with context := some (atText u d done 0 true) }).testFlag d).testRooms)) ∧
    (∀ k h next, (s.desk d).buffer.length + codes.codes.length ≤ 8 → rest = [] → c.segment = .notice k h next →
      next ≠ .finish →
      (∀ x, goesOn u d done next x → exec (.composeGroup d) s = .next (((u.onDesk d fun k =>
        { k with context := some x }).testFlag d).testRooms)) ∧
      (endsAt u next → exec (.composeGroup d) s = .next (((ended u d c.handle).testFlag d).testRooms)))) ∧
  (∀ (s : State) (d : DeskId) (c : SendContext),
    (s.desk d).context = some c → c.segment = .text →
    (c.openingDone = false → ∀ codes, codes = s.groupCodes c.columnLimit ⟨(s.desk d).shift, (s.desk d).column⟩ .opening →
      (8 < (s.desk d).buffer.length + codes.codes.length →
        exec (.composeGroup d) s = .next ((s.testFlag d).testRooms)) ∧
      ((s.desk d).buffer.length + codes.codes.length ≤ 8 →
        exec (.composeGroup d) s = .next (((s.onDesk d fun k =>
          { placed k codes with context := some { c with openingDone := true } }).testFlag d).testRooms))) ∧
    ((s.desk d).preempt = false ∨ ¬ FlashWaits s d → c.openingDone = true →
      (s.stagedByte d c = none → exec (.composeGroup d) s = .next ((s.testFlag d).testRooms)) ∧
      ∀ b codes moved u, s.stagedByte d c = some b →
        codes = s.groupCodes c.columnLimit ⟨(s.desk d).shift, (s.desk d).column⟩
          (if b = 0x0A then .lineEnd else .char b) →
        moved =
          { c with
            cursor := c.cursor + 1
            lineStart := if b = 0x0A then c.cursor + 1 else if codes.folded then c.cursor else c.lineStart } →
        u = s.onDesk d (fun k =>
          { placed k codes with
            staging0 := k.staging0.handBack c.cursor, staging1 := k.staging1.handBack c.cursor }) →
        (8 < (s.desk d).buffer.length + codes.codes.length →
          exec (.composeGroup d) s = .next ((s.testFlag d).testRooms)) ∧
        ((s.desk d).buffer.length + codes.codes.length ≤ 8 → c.cursor + 1 < (s.story c.handle).textCount →
          exec (.composeGroup d) s = .next (((u.onDesk d fun k =>
            { k with context := some moved }).testFlag d).testRooms)) ∧
        ((s.desk d).buffer.length + codes.codes.length ≤ 8 → (s.story c.handle).textCount ≤ c.cursor + 1 →
          exec (.composeGroup d) s = .next (((u.onDesk d fun k =>
            { k with
              context := some
                { moved with segment := .trailer, layout := u.trailerLayout d c false, openingDone := true } }).testFlag
            d).testRooms)))) ∧
  (∀ (s : State) (d : DeskId), (s.desk d).context = none →
    exec (.composeGroup d) s = .next ((s.testFlag d).testRooms)) ∧
  (∀ (s : State) (d : DeskId), s.breakReady d ≠ none → exec (.composeGroup d) s = exec (.flashBreak d) s) ∧
  ∀ (s : State) (limit : Nat) (p : PrintState) (g : Group),
    s.groupCodes limit p g = converted s limit p g ∧ (s.groupCodes limit p g).codes.length ≤ 4

/-- FLASH_BREAK at a desk (R95, R106, R122): with the preempt flag set, its conditions standing and the opening done,
the current item becomes the saved context at its resume point, the flash at the queue head becomes current with a
BREAK notice (its HEADER when phrase 4 is empty), and FLASH_BREAK is reported; otherwise no break is made. That the text
cursor and the line start are 0 while a BREAK notice comes first is the model's choice, log entry 34; that a step presented
without its conditions changes nothing is log entry 5. -/
def Obligations.FlashBreakSavesItem : Prop :=
  (∀ (s : State) (d : DeskId) (c : SendContext) (e : DeskEntry) (more : List DeskEntry) (resume : ResumePoint),
    (s.desk d).context = some c → (s.desk d).queue = e :: more → (s.desk d).preempt = true → FlashWaits s d →
    c.openingDone = true → resume = (if c.segment = .text then .text c.lineStart else .header) →
    ∃ t, exec (.flashBreak d) s = .next t ∧
      t.desk d =
        { s.desk d with
          queue := more
          saved := some { handle := c.handle, resume := resume, cutNotice := none }
          preempt := false
          epoch := (s.desk d).epoch + 1, staging0 := .empty, staging1 := .empty
          context := some (if s.phrase 4 = [] then startOf s d e.handle .story .header (s.headerLayout e.handle)
            else startOf s d e.handle .story (.notice .breakNotice c.handle .header)
              (s.noticeLayout .breakNotice c.handle)) } ∧
      t.markAt e.handle d = .active ∧
      t.writer = (s.report (naming s .flashBreak (byte (d.val + 1)) c.handle
        ([byte resume.code] ++ leBytes 2 resume.offset ++ [byte e.handle.val, (s.story e.handle).generation] ++
          leBytes 2 (s.story e.handle).serial))).writer ∧
      (∀ d', d' ≠ d → t.desk d' = s.desk d') ∧
      t = { s with desks := t.desks, stories := t.stories, writer := t.writer }) ∧
  ∀ (s : State) (d : DeskId),
    ((s.desk d).preempt = false ∨ (∀ c, (s.desk d).context = some c → c.openingDone = false) ∨ ¬ FlashWaits s d) →
    exec (.flashBreak d) s = .next s

/-! ### Trunks -/

/-- The line code (R142): a valid pattern has exactly four marks; the 35 valid ones are numbered in ascending order; index
i below 32 carries the five-unit value i, FRAME, IDLE and HALT are 32, 33 and 34; the longest run of space in any sequence
of valid symbols is 6 units; and a symbol is sent unit 1 first. -/
def Obligations.LineCodeFourOfSeven : Prop :=
  patterns.length = 35 ∧ (∀ p : Pattern, p ∈ patterns ↔ markCount p = 4) ∧ patterns.Pairwise (· < ·) ∧
    (∀ c : FiveUnit, patterns[c.toNat]? = some (codePattern c) ∧ patternIndex (codePattern c) = some c.toNat) ∧
    patterns[32]? = some 0b1110010 ∧ patterns[33]? = some 0b1110100 ∧ patterns[34]? = some 0b1111000 ∧
    (∀ p ∈ patterns, ∀ q ∈ patterns, ∀ i ≤ 7, ((p ++ q : BitVec 14).extractLsb' i 7) ≠ 0) ∧
    ∀ (s : State) (u : TrunkId) (f : Framing), (s.trunk u).transmitter = some f → 1 ≤ f.unit → f.unit ≤ 7 →
      s.txd u = if f.pattern.getLsbD (7 - f.unit) then .mark else .space

/-- FRAME_START and TRANSMITTER_ENTERS_MARK (R144 to R148): at the end of a frame, a trunk in UP begins a data frame
and one in any other state but DOWN a bring-up frame with the word it offers; a transmitter completing its last symbol
enters MARK in DOWN, and begins a frame at once when its trunk has left DOWN again. That a boundary stands for the
inner symbols of a bring-up frame is log entry 6. That a transmitter completing its last symbol begins a data frame when
its trunk is UP, where R144 names a bring-up frame, is log entry 27. That a step presented without its conditions changes
nothing is log entry 5. -/
def Obligations.FrameChosenAtBoundary : Prop :=
  ∀ (s : State) (u : TrunkId) (f : Framing), (s.trunk u).transmitter = some f →
    (f.stopping = false → (s.trunk u).bringUp.state ≠ .down →
      (f.kind = .data → f.symbol = s.slotCount u + 1) →
      exec (.frameStart u) s = .next (s.onTrunk u fun k =>
        { k with transmitter := some (firstSymbol s u
            (if k.bringUp.state = .up then .data else .bringUp (s.offeredWord u))) })) ∧
    (f.stopping = true ∨ (f.kind = .data ∧ f.symbol ≠ s.slotCount u + 1) →
      exec (.frameStart u) s = .next s) ∧
    (f.stopping = true → (s.trunk u).bringUp.state = .down →
      exec (.transmitterEntersMark u) s = .next (s.onTrunk u fun k => { k with transmitter := none })) ∧
    (f.stopping = true → (s.trunk u).bringUp.state ≠ .down →
      exec (.transmitterEntersMark u) s = .next (s.onTrunk u fun k =>
        { k with transmitter := some (firstSymbol s u
            (if k.bringUp.state = .up then .data else .bringUp (s.offeredWord u))) })) ∧
    (f.stopping = false → exec (.transmitterEntersMark u) s = .next s)

/-- SLOT_START (R117, R126, R149, Table 8-4): the slot's symbol and its effect by the first line that applies: IDLE for a
spare slot, out of UP, under LINE or FAR_STOP, and for an empty buffer, which counts an underrun when there is a current item;
otherwise the pattern of the oldest code, which leaves the buffer. A tagged code ends the item: its holder is released and its
context gone; the mark of a STORY item in TRAILER becomes DONE, that of one in a cut notice stays CUT, and a KILL_NOTICE item
leaves its story's marks; the story may become SPENT or FREE by that (R78, R79). That the record of a FREE one holds window 0,
agency 0 and origin 0 is the model's choice (log entry 33). -/
def Obligations.SlotCarriesByTable : Prop :=
  ∀ (s : State) (u : TrunkId) (f : Framing) (send : Pattern → State → State),
    (s.trunk u).transmitter = some f → f.kind = .data → f.stopping = false → f.symbol ≤ s.slotCount u →
    (∀ p t, send p t = t.onTrunk u fun k =>
      { k with transmitter := some { f with symbol := f.symbol + 1, unit := 1, timer := 0, pattern := p } }) →
    (s.slotDesk u f.symbol = none → exec (.slotStart u) s = .next ((send 0b1110100 s).testRooms)) ∧
    ∀ d, s.slotDesk u f.symbol = some d →
      ((s.trunk u).bringUp.state ≠ .up ∨ (s.desk d).line = true ∨ (s.desk d).farStop = true ∨
        ((s.desk d).buffer = [] ∧ (s.desk d).context = none) →
        exec (.slotStart u) s = .next (((send 0b1110100 s).testFlag d).testRooms)) ∧
      ((s.trunk u).bringUp.state = .up → (s.desk d).line = false → (s.desk d).farStop = false →
        (∀ x more, (s.desk d).buffer = x :: more →
          (x.endTag = false → exec (.slotStart u) s = .next (((send (codePattern x.code) (s.onDesk d fun k =>
            { k with buffer := more })).testFlag d).testRooms)) ∧
          (∀ (c : SendContext) (u' : State), x.endTag = true → (s.desk d).context = some c →
            u' = send (codePattern x.code) (s.onDesk d fun k => { k with buffer := more }) →
            (c.kind = .story → c.segment = .trailer →
              exec (.slotStart u) s = .next (((ended (u'.setMark c.handle d .done) d c.handle).testFlag d).testRooms)) ∧
            (∀ k h, c.kind = .story → c.segment = .notice k h .finish →
              exec (.slotStart u) s = .next (((ended u' d c.handle).testFlag d).testRooms)) ∧
            (c.kind = .killNotice →
              exec (.slotStart u) s = .next (((ended u' d c.handle).testFlag d).testRooms)))) ∧
        (∀ c n, (s.desk d).buffer = [] → (s.desk d).context = some c →
          n = (if (s.desk d).underruns < 255 then (s.desk d).underruns + 1 else (s.desk d).underruns) →
          (c.underrunLatch = true → exec (.slotStart u) s = .next (((send 0b1110100 (s.onDesk d fun k =>
            { k with underruns := n })).testFlag d).testRooms)) ∧
          (c.underrunLatch = false → exec (.slotStart u) s = .next (((send 0b1110100 ((s.onDesk d fun k =>
            { k with underruns := n, context := some { c with underrunLatch := true } }).report
              (naming s .underrun (byte (d.val + 1)) c.handle [byte c.segment.code, byte n]))).testFlag d).testRooms))))

/-- BREAK_START and BREAK_END (R157, R158, R182): LINE_BREAK and LINE_MARK carry the trunk state; a break takes every
state but DOWN and BROKEN to BROKEN, and its end takes BROKEN to SEARCH. A break that already stands, and an end
without one, change nothing. The accepted level is then the event's and the run count 256; the last sample stands as it was
read when they stood so already, as after a period that makes the event (R155), and is otherwise at the event's level too:
the model's choice, log entry 24. That a step presented without its conditions changes nothing is log entry 5, and that the
entry to SEARCH clears the miss count and the switch-window count log entry 43. -/
def Obligations.BreaksMoveTheTrunk : Prop :=
  ∀ (s : State) (u : TrunkId) (low high : Receiver → Receiver),
    (∀ r, low r = { r with
      inBreak := true, run := 256, accepted := .space
      lastSample := if r.accepted = .space ∧ r.run = 256 then r.lastSample else .space }) →
    (∀ r, high r = { r with
      inBreak := false, run := 256, accepted := .mark
      lastSample := if r.accepted = .mark ∧ r.run = 256 then r.lastSample else .mark }) →
    ((s.trunk u).receiver.inBreak = true → exec (.breakStart u) s = .next s) ∧
    ((s.trunk u).receiver.inBreak = false → exec (.breakEnd u) s = .next s) ∧
    ((s.trunk u).receiver.inBreak = false →
      ((s.trunk u).bringUp.state = .down ∨ (s.trunk u).bringUp.state = .broken →
        exec (.breakStart u) s = .next ((s.onTrunk u fun k => { k with receiver := low k.receiver }).report
          (plain s .lineBreak (byte u.val) [byte (s.trunk u).bringUp.state.code]))) ∧
      ((s.trunk u).bringUp.state ≠ .down → (s.trunk u).bringUp.state ≠ .broken → ∃ t, exec (.breakStart u) s = .next t ∧
        t = { (s.onTrunk u fun k =>
                { k with
                  receiver := fresh (low k.receiver) .off k.receiver.mismatch
                  bringUp :=
                    { k.bringUp with
                      state := .broken, received := none, page := none, linkTimer := none
                      limitTimer :=
                        if k.bringUp.state ≠ .up then k.bringUp.limitTimer
                        else if s.bringUpLimit u = 0 then none else some 0 } }).report
                (plain s .lineBreak (byte u.val) [byte (s.trunk u).bringUp.state.code]) with
              desks := t.desks } ∧
        (∀ d, (s.trunk u).bringUp.state = .up → OnTrunk s u d →
          t.desk d = { s.desk d with line := true, farStop := false }) ∧
        ∀ d, (s.trunk u).bringUp.state ≠ .up ∨ ¬ OnTrunk s u d → t.desk d = s.desk d)) ∧
    ((s.trunk u).receiver.inBreak = true →
      exec (.breakEnd u) s = .next ((s.onTrunk u fun k =>
        if k.bringUp.state = .broken then
          { k with
            receiver := fresh (high k.receiver) .measuring false
            bringUp := { k.bringUp with state := .search, received := none, page := none, linkTimer := none } }
        else { k with receiver := high k.receiver }).report
        (plain s .lineMark (byte u.val) [byte (s.trunk u).bringUp.state.code])))

/-- MEASUREMENT_COMPLETE and FRAME_PAIR_FOUND (R159 to R161): an estimate of 14 to 18 samples goes on to SEEKING, any
other is reported once and measured again; a first pair locks, the third makes FRAMED with the reference at the pair,
and a pair not found in LOCKING returns to SEEKING. That a step presented without its conditions changes nothing is
log entry 5. -/
def Obligations.MeasurementThenThreePairs : Prop :=
  ∀ (s : State) (u : TrunkId) (a : Machine.Alignment), (s.trunk u).receiver.alignment = a →
    (∀ n, a = .measuring → 14 ≤ n → n ≤ 18 →
      exec (.measurementComplete u n) s = .next (s.onReceiver u fun r =>
        { r with measured := n, alignment := .seeking, measurement := none })) ∧
    (∀ n t, a = .measuring → n < 14 ∨ 18 < n →
      t = s.onReceiver u (fun r =>
        { r with measured := n, mismatch := true, measurement := some { count := 0, shortest := 255 } }) →
      exec (.measurementComplete u n) s = .next
        (if (s.trunk u).receiver.mismatch then t
        else t.report (plain s .rateMismatch (byte u.val) [byte n, byte (s.rateClass u)]))) ∧
    (∀ n, a ≠ .measuring → exec (.measurementComplete u n) s = .next s) ∧
    (a = .seeking →
      exec (.framePairFound u false) s = .next s ∧
      exec (.framePairFound u true) s = .next (s.onReceiver u fun r =>
        { r with alignment := .locking, lock := some { count := 1, offset := 1 }, unitCount := 0 })) ∧
    (a = .locking →
      exec (.framePairFound u false) s = .next (s.onReceiver u fun r => { r with alignment := .seeking, lock := none }) ∧
      ∀ l, (s.trunk u).receiver.lock = some l →
        (l.count = 1 → exec (.framePairFound u true) s = .next (s.onReceiver u fun r =>
          { r with lock := some { count := 2, offset := 1 } })) ∧
        (l.count = 2 → exec (.framePairFound u true) s = .next (s.onReceiver u fun r =>
          { r with
            alignment := .framed, lock := none, missCount := 0
            ref := some { kind := .bringUp, offset := 1, accepted := true, slotsRead := false, afterBringUp := false
                          values := [], withheld := false } })))

/-- FAR_FRAME_START, MISSING_FRAME, RETURN_SLOT_READ and SYMBOL_READ (R162 to R168), a clause for each. FRAME at a position at
which a frame may start is accepted with its kind pending, and in DATA the switch-window count falls; the next symbol settles
its kind, and a BRING-UP start 6 symbols after another, with the count at 0, loses the trunk as FAR_RESTART. A missing frame
moves the reference on by whole frames; the second one in a row returns FRAMED to SEEKING, and loses a trunk in DATA as
ALIGNMENT. In a frame accepted in DATA, HALT and IDLE in a slot set and clear FAR_STOP of its desk, and any other symbol
leaves it; a frame accepted in FRAMED has no slots read. FRAME, IDLE and HALT as word symbols withhold the word; any other
symbol is read for code errors only. A code error is counted, and the first captured and reported, with the slot of a return
slot and 0 elsewhere, whatever the symbol is to the tracker; at the symbol after a FRAME it settles the kind DATA, at a frame
position the frame is missing, and in a slot it leaves FAR_STOP. Which row a symbol is read by is log entry 21, that the slot
is given in FRAMED as in DATA is log entry 19, and that an ALIGNMENT loss reports the count after its fall is log entry 18.
That both spacings are looked at after a missing DATA frame too, while the window is open, is log entry 32; that a trunk lost
has its miss count and switch-window count cleared is log entry 43; that a code error at the frame position is reported before
the loss that the same symbol settles is log entry 45. -/
def Obligations.SymbolReadByItsRole : Prop :=
  ∀ (s : State) (u : TrunkId) (f : FrameRef) (sym : Pattern) (r : Receiver) (n o : Nat),
    r = (s.trunk u).receiver → r.ref = some f → n = s.slotCount u → o = f.offset + 1 →
    r.alignment = .framed ∨ r.alignment = .data →
    (MayStart n (BothSpacings r) f.kind o →
      exec (.farFrameStart u 0b1110010) s = .next (s.onReceiver u fun x =>
        { x with
          missCount := 0, switchWindow := windowAfter r
          ref := some
            { kind := .pending, offset := 0, accepted := true, slotsRead := decide (r.alignment = .data)
              afterBringUp := f.accepted && decide (f.kind = .bringUp), values := [], withheld := false } })) ∧
    (f.kind = .pending → r.alignment = .framed → sym = 0b1110010 ∨ markCount sym = 4 →
      exec (.farFrameStart u sym) s = .next (s.onReceiver u fun x =>
        { x with ref := some { f with kind := if sym = 0b1110010 then .bringUp else .data, offset := 1 } })) ∧
    (f.kind = .pending → r.alignment = .data →
      (0 < r.switchWindow ∨ f.afterBringUp = false →
        exec (.farFrameStart u 0b1110010) s = .next (s.onReceiver u fun x =>
          { x with ref := some { f with kind := .bringUp, offset := 1 } })) ∧
      (r.switchWindow = 0 → f.afterBringUp = true → (s.trunk u).bringUp.state = .up → r.inBreak = false →
        ∃ t, exec (.farFrameStart u 0b1110010) s = .next t ∧ LostFrom s u 2 0 t) ∧
      (f.slotsRead = false → sym ≠ 0b1110010 → markCount sym = 4 →
        exec (.farFrameStart u sym) s = .next (s.onReceiver u fun x =>
          { x with ref := some { f with kind := .data, offset := 1 } })) ∧
      (∀ d, f.slotsRead = true → sym ≠ 0b1110010 → markCount sym = 4 → 1 ≤ n → s.slotDesk u 1 = some d →
        exec (.returnSlotRead u sym) s = .next ((s.onReceiver u fun x =>
          { x with ref := some { f with kind := .data, offset := 1 } }).onDesk d (hears sym))) ∧
      (f.slotsRead = true → sym ≠ 0b1110010 → markCount sym = 4 → s.slotDesk u 1 = none →
        exec (.returnSlotRead u sym) s = .next (s.onReceiver u fun x =>
          { x with ref := some { f with kind := .data, offset := 1 } }))) ∧
    (MayStart n (BothSpacings r) f.kind o → (∀ x, MayStart n (BothSpacings r) f.kind x → x ≤ o) → sym ≠ 0b1110010 →
      markCount sym = 4 →
      (r.missCount = 0 → exec (.missingFrame u sym) s = .next (s.onReceiver u fun x =>
        { x with missCount := 1, switchWindow := windowAfter r, ref := some (missedRef n f) })) ∧
      (r.missCount ≠ 0 → r.alignment = .framed → exec (.missingFrame u sym) s = .next (s.onReceiver u fun x =>
        { x with alignment := .seeking, missCount := 0, ref := none })) ∧
      (r.missCount ≠ 0 → r.alignment = .data → (s.trunk u).bringUp.state = .up → r.inBreak = false →
        ∃ t, exec (.missingFrame u sym) s = .next t ∧ LostFrom s u 1 (windowAfter r) t)) ∧
    (∀ (v w : State) (count : Nat), MayStart n (BothSpacings r) f.kind o →
      (∀ x, MayStart n (BothSpacings r) f.kind x → x ≤ o) → markCount sym ≠ 4 →
      count = (if r.errorCount < 255 then r.errorCount + 1 else r.errorCount) →
      v = s.onReceiver u (fun x => { x with errorCount := count, capture := some (x.capture.getD ⟨0, sym⟩) }) →
      w = (if r.capture = none then
        v.report (plain s .codeError (byte u.val)
          [0, byte sym.toNat, if r.alignment = .framed then 4 else 5, byte count]) else v) →
      (r.missCount = 0 → exec (.missingFrame u sym) s = .next (w.onReceiver u fun x =>
        { x with missCount := 1, switchWindow := windowAfter r, ref := some (missedRef n f) })) ∧
      (r.missCount ≠ 0 → r.alignment = .framed → exec (.missingFrame u sym) s = .next (w.onReceiver u fun x =>
        { x with alignment := .seeking, missCount := 0, ref := none })) ∧
      (r.missCount ≠ 0 → r.alignment = .data → (s.trunk u).bringUp.state = .up → r.inBreak = false →
        ∃ t, exec (.missingFrame u sym) s = .next t ∧ LostFrom w u 1 (windowAfter r) t)) ∧
    (r.alignment = .data → f.kind = .data → f.slotsRead = true → o ≤ n → markCount sym = 4 →
      sym ≠ 0b1110010 ∨ o ≠ 6 ∨ r.switchWindow = 0 →
      (∀ d, s.slotDesk u o = some d →
        exec (.returnSlotRead u sym) s = .next
          ((s.onReceiver u fun x => { x with ref := some { f with offset := o } }).onDesk d (hears sym))) ∧
      (s.slotDesk u o = none →
        exec (.returnSlotRead u sym) s = .next (s.onReceiver u fun x => { x with ref := some { f with offset := o } }))) ∧
    (∀ c : FiveUnit, r.alignment = .framed → f.kind = .bringUp → f.accepted = true → 2 ≤ o → o ≤ 5 →
      exec (.symbolRead u (codePattern c)) s = .next (s.onReceiver u fun x =>
        { x with ref := some { f with offset := o, values := f.values ++ [c] } })) ∧
    (r.alignment = .framed → f.kind = .bringUp → f.accepted = true → 2 ≤ o → o ≤ 5 →
      sym = 0b1110010 ∨ sym = 0b1110100 ∨ sym = 0b1111000 →
      exec (.symbolRead u sym) s = .next (s.onReceiver u fun x =>
        { x with ref := some { f with offset := o, withheld := true } })) ∧
    (ReadPlainly r f n o sym →
      (markCount sym = 4 →
        exec (.symbolRead u sym) s = .next (s.onReceiver u fun x => { x with ref := some { f with offset := o } })) ∧
      ∀ (t : State) (slot count : Nat), markCount sym ≠ 4 →
        slot = (if f.accepted = true ∧ f.kind = .data ∧ o ≤ n then o else 0) →
        count = (if r.errorCount < 255 then r.errorCount + 1 else r.errorCount) →
        t = s.onReceiver u (fun x =>
          { x with
            errorCount := count, capture := some (x.capture.getD ⟨slot, sym⟩), ref := some { f with offset := o } }) →
        exec (.symbolRead u sym) s = .next
          (if r.capture = none then
            t.report (plain s .codeError (byte u.val)
              [byte slot, byte sym.toNat, if r.alignment = .framed then 4 else 5, byte count])
          else t)) ∧
    ∀ (t : State) (slot count : Nat) (g : FrameRef), markCount sym ≠ 4 → f.accepted = true →
      count = (if r.errorCount < 255 then r.errorCount + 1 else r.errorCount) →
      t = s.onReceiver u (fun x =>
        { x with errorCount := count, capture := some (x.capture.getD ⟨slot, sym⟩), ref := some g }) →
      (r.alignment = .framed → f.kind = .bringUp → 2 ≤ o → o ≤ 5 → slot = 0 →
        g = { f with offset := o, withheld := true } →
        exec (.symbolRead u sym) s = .next
          (if r.capture = none then t.report (plain s .codeError (byte u.val) [0, byte sym.toNat, 4, byte count])
          else t)) ∧
      (r.alignment = .data → f.kind = .data → f.slotsRead = true → o ≤ n → slot = o → g = { f with offset := o } →
        exec (.returnSlotRead u sym) s = .next
          (if r.capture = none then
            t.report (plain s .codeError (byte u.val) [byte o, byte sym.toNat, 5, byte count])
          else t)) ∧
      (f.kind = .pending → slot = (if o ≤ n then o else 0) → g = { f with kind := .data, offset := 1 } →
        (r.alignment = .framed → exec (.farFrameStart u sym) s = .next
          (if r.capture = none then
            t.report (plain s .codeError (byte u.val) [byte slot, byte sym.toNat, 4, byte count])
          else t)) ∧
        (r.alignment = .data → f.slotsRead = false → exec (.farFrameStart u sym) s = .next
          (if r.capture = none then
            t.report (plain s .codeError (byte u.val) [byte slot, byte sym.toNat, 5, byte count])
          else t)) ∧
        (r.alignment = .data → f.slotsRead = true → exec (.returnSlotRead u sym) s = .next
          (if r.capture = none then
            t.report (plain s .codeError (byte u.val) [byte slot, byte sym.toNat, 5, byte count])
          else t)))

/-- BRING_UP_WORD_RECEIVED (R172, R173, R176 to R180): a word is taken only in FRAMED and in a state of bring-up; a legal
one is counted, to at most 3, and examined by the state. SEARCH: three identical compatible BASE words lead to CONFIRM with
the far station. CONFIRM: with ack on to MAP or SETTLE, as do a PAGE word to MAP and a NULL with ack to SETTLE; an
incompatible BASE falls back to SEARCH. In both an incompatible BASE is reported when its count becomes 3. MAP: a PAGE word
of the present slot is seen when repeated, and with ack steps the page, as does the next slot's once it is seen; a wrong
desk or slot is a MAP_MISMATCH. MAP and SETTLE: a BASE without ack falls back to SEARCH, without a report. That the step
takes a word whenever the receiver is FRAMED is log entry 21, and that one presented otherwise changes nothing is log
entry 5. That a fall back to SEARCH clears the miss count and the switch-window count is log entry 43. -/
def Obligations.BringUpWordsCountedAndExamined : Prop :=
  ∀ (s : State) (u : TrunkId) (w : BringUpWord) (n : Nat) (st : TrunkState) (t settle map : State) (wrong : State → State),
    (s.trunk u).bringUp.state = st →
    ((s.trunk u).receiver.alignment ≠ .framed ∨ st = .down ∨ st = .up ∨ st = .broken ∨ wordKind w = .ignored →
      exec (.bringUpWordReceived u w) s = .next s) ∧
    ((s.trunk u).receiver.alignment = .framed → wordKind w ≠ .ignored →
      (∀ x, (s.trunk u).bringUp.received = some x → x.word = w → n = min 3 (x.repeats + 1)) →
      ((∀ x, (s.trunk u).bringUp.received = some x → x.word ≠ w) → n = 1) →
      t = s.onBringUp u (fun b => { b with received := some { word := w, repeats := n } }) →
      settle = t.onBringUp u (fun b => { b with state := .settle, page := none, linkTimer := some 0 }) →
      map = t.onBringUp u (fun b => { b with state := .map, page := some { index := 1, seen := false } }) →
      (∀ x, wrong x =
        if (s.trunk u).bringUp.received = some { word := w, repeats := 2 } then
          x.report (plain s .trunkMismatch (byte u.val)
            [byte (w.toNat / 2 ^ 12 % 16), byte (w.toNat / 2 ^ 10 % 4), byte (w.toNat / 2 ^ 16 % 2),
             byte (w.toNat / 2 ^ 5 % 32), byte (s.slotCount u), byte (s.rateClass u),
             if s.ownMore u then 1 else 0])
        else x) →
      (st = .search → wordKind w ≠ .base ∨ n ≠ 3 → exec (.bringUpWordReceived u w) s = .next t) ∧
      (st = .search → wordKind w = .base → n = 3 → s.compatible u w = true →
        exec (.bringUpWordReceived u w) s = .next (t.onBringUp u fun b =>
          { b with state := .confirm, farStation := some (w.toNat / 2 ^ 5 % 32) })) ∧
      (st = .search → wordKind w = .base → n = 3 → s.compatible u w = false →
        exec (.bringUpWordReceived u w) s = .next (wrong t)) ∧
      (st = .confirm → wordKind w = .base →
        (n ≠ 3 → exec (.bringUpWordReceived u w) s = .next t) ∧
        (n = 3 → s.compatible u w = true → w.getLsbD 17 = true →
          exec (.bringUpWordReceived u w) s = .next (if s.ownMore u then map else settle)) ∧
        (n = 3 → s.compatible u w = true → w.getLsbD 17 = false → exec (.bringUpWordReceived u w) s = .next t) ∧
        (n = 3 → s.compatible u w = false → (s.trunk u).receiver.inBreak = false →
          exec (.bringUpWordReceived u w) s = .next (searching (wrong t) u))) ∧
      (st = .confirm → wordKind w = .page →
        exec (.bringUpWordReceived u w) s = .next (if s.ownMore u then map else t)) ∧
      (st = .confirm → wordKind w = .null →
        exec (.bringUpWordReceived u w) s = .next
          (if w.getLsbD 17 = true ∧ s.ownMore u = false then settle else t)) ∧
      (∀ (k slot desk : Nat) (seen : Bool) (step : State) (mismatch : Nat → State), st = .map →
        (s.trunk u).bringUp.page = some ⟨k, seen⟩ → (s.trunk u).receiver.inBreak = false →
        slot = w.toNat / 2 ^ 12 % 16 → desk = w.toNat / 2 ^ 7 % 32 →
        step = (if k < s.slotCount u then t.onBringUp u (fun b => { b with page := some ⟨k + 1, false⟩ }) else settle) →
        (∀ cause, mismatch cause = searching (t.report (plain s .mapMismatch (byte u.val)
          [byte k, byte (s.slotNumber u k), byte slot, byte desk, byte cause])) u) →
        (wordKind w = .page →
          (slot = 0 ∨ k + 1 < slot ∨ s.slotCount u < slot →
            exec (.bringUpWordReceived u w) s = .next (mismatch 2)) ∧
          (1 ≤ slot → slot < k → slot ≤ s.slotCount u → exec (.bringUpWordReceived u w) s = .next t) ∧
          (1 ≤ slot → slot = k → slot ≤ s.slotCount u →
            (seen = true → exec (.bringUpWordReceived u w) s = .next (if w.getLsbD 17 then step else t)) ∧
            (seen = false → n ≠ 3 → exec (.bringUpWordReceived u w) s = .next t) ∧
            (seen = false → n = 3 → desk ≠ s.slotNumber u k →
              exec (.bringUpWordReceived u w) s = .next (mismatch 1)) ∧
            (seen = false → n = 3 → desk = s.slotNumber u k →
              exec (.bringUpWordReceived u w) s = .next
                (if w.getLsbD 17 then step else t.onBringUp u fun b => { b with page := some ⟨k, true⟩ }))) ∧
          (slot = k + 1 → slot ≤ s.slotCount u →
            exec (.bringUpWordReceived u w) s = .next (if seen then step else mismatch 2))) ∧
        (wordKind w = .base → exec (.bringUpWordReceived u w) s = .next (if w.getLsbD 17 then t else searching s u)) ∧
        (wordKind w = .null →
          exec (.bringUpWordReceived u w) s = .next
            (if w.getLsbD 17 = true ∧ k = s.slotCount u ∧ seen = true then settle else t))) ∧
      (st = .settle → wordKind w ≠ .base ∨ w.getLsbD 17 = true → exec (.bringUpWordReceived u w) s = .next t) ∧
      (st = .settle → wordKind w = .base → w.getLsbD 17 = false → (s.trunk u).receiver.inBreak = false →
        exec (.bringUpWordReceived u w) s = .next (searching s u)))

/-- LINK_TIMER_EXPIRY and BRING_UP_LIMIT_EXPIRY (R125, R158, R180, R184, R186): in SETTLE a FRAMED trunk enters UP with
TRUNK_UP, DATA and a switch window of 8; its desks lose LINE in slot order, and the current item of each that held it is
restored in turn: buffer and staging emptied, the epoch raised, a line end, and a RESTORED notice before its restart point, or
that at once when phrase 8 is empty. A trunk that is not FRAMED falls back to SEARCH and its desks hold LINE, TRUNK_UP and
TRUNK_LOST as ALIGNMENT being reported. A running limit timer reports TRUNK_STALLED and restarts. A timer that does not run
changes nothing. These clauses are the model's choice: that the line end comes before the notice is log entry 37; that an
interrupted notice whose phrase has been emptied since is left out, and that the item ends there where END follows, is log
entry 26; that the loss at once carries the switch-window count as it stood is log entry 44, and that the count is then
cleared log entry 43; that the record of a story that becomes FREE holds window 0, agency 0 and origin 0 is log entry 33; that
a step presented without its conditions changes nothing is log entry 5. -/
def Obligations.LinkAndLimitTimersExpire : Prop :=
  ∀ (s : State) (u : TrunkId) (x : TrunkState) (station : Byte), (s.trunk u).bringUp.state = x →
    station = (match (s.trunk u).bringUp.farStation with
      | some n => byte n
      | none => 0xFF) →
    (x ≠ .settle ∨ (s.trunk u).bringUp.linkTimer = none → exec (.linkTimerExpiry u) s = .next s) ∧
    (∀ entered : State, x = .settle → (s.trunk u).bringUp.linkTimer ≠ none →
      entered = (s.onTrunk u fun k =>
        { k with bringUp := { k.bringUp with state := .up, linkTimer := none, limitTimer := none } }).report
        (plain s .trunkUp (byte u.val) [station, byte (s.slotCount u), byte (s.rateClass u)]) →
      ((s.trunk u).receiver.alignment = .framed →
        ∃ t v : State, RestoredAll (desksInOrder s u) entered t ∧ exec (.linkTimerExpiry u) s = .next v ∧
          v = ((t.onReceiver u fun r => { r with alignment := .data, switchWindow := 8 }).testFlags).testRooms ∧
          ∀ d, (v.desk d).preempt = true ↔ FlashWaits v d) ∧
      ((s.trunk u).receiver.alignment ≠ .framed → (s.trunk u).receiver.inBreak = false →
        ∃ t v : State, RestoredAll (desksInOrder s u) entered t ∧
          exec (.linkTimerExpiry u) s = .next ((v.testFlags).testRooms) ∧
          LostFrom t u 1 (s.trunk u).receiver.switchWindow v)) ∧
    ((s.trunk u).bringUp.limitTimer = none → exec (.bringUpLimitExpiry u) s = .next s) ∧
    ((s.trunk u).bringUp.limitTimer ≠ none →
      exec (.bringUpLimitExpiry u) s = .next ((s.onBringUp u fun b => { b with limitTimer := some 0 }).report
        (plain s .trunkStalled (byte u.val)
          [byte x.code, byte (((s.trunk u).bringUp.page.map MapPage.index).getD 0), station])))

/-! ### Invariants -/

/-- The limits of the completion queue (R8): at most 8 UPSTREAM entries and at most 8 own entries, with room kept for the
entry of a write in a hold (R3, R12), in every step from every state that has them; and a FETCH entry is made only while
they number fewer than the fetch limit. -/
def Obligations.CompletionQueueKept : Prop :=
  (∀ s t : State, Safety.CompletionQueue s → step s = .next t → Safety.CompletionQueue t) ∧
  ∀ s t : State, exec .fetchReadGrant s = .next t → s.fetchLimit ≤ s.fetchEntries → t = s

/-- The setup shadows keep their one canonical form in every step, so that equal shadows are equal data. -/
def Obligations.SetupCanonicalKept : Prop := ∀ s t : State, Safety.Setup s → step s = .next t → Safety.Setup t

/-- Every desk and trunk, the control FIFO, the pending report queue and the minute clock stay within their limits in every
step (R24, R87, R108, R126, R157, R162, R164, R166, R189, R194). -/
def Obligations.LimitsKept : Prop :=
  ∀ s t : State, Safety.Desks s → Safety.Trunks s → Safety.ControlFifo s → Safety.ReportQueue s → Safety.Minute s →
    step s = .next t →
    Safety.Desks t ∧ Safety.Trunks t ∧ Safety.ControlFifo t ∧ Safety.ReportQueue t ∧ Safety.Minute t

/-- All the invariants hold right after a hard reset. -/
def Obligations.InvariantsAtReset : Prop :=
  Safety.CompletionQueue State.reset ∧ Safety.Setup State.reset ∧ Safety.Desks State.reset ∧
    Safety.Trunks State.reset ∧ Safety.ControlFifo State.reset ∧ Safety.ReportQueue State.reset ∧
    Safety.Minute State.reset
end

