-- ==== Sys2Proof/Laws/Memory.lean ====
section
/-!
SUPPORT. The store of the setup shadows: its operations keep the canonical form, the store after a hard reset has it, and
what a byte reads as after a write.
-/

namespace Sys2Proof.Machine

/-! ### Membership -/

theorem Cells.mem_put {a : Nat} {b : Byte} {m : List Host.Cell} {c : Host.Cell} (h : c ∈ Cells.put a b m) :
    c = (a, b) ∨ c ∈ m := by
  induction m with
  | nil => simpa [Cells.put] using h
  | cons x rest ih =>
    obtain ⟨y, v⟩ := x
    unfold Cells.put at h
    split at h
    · simpa using h
    · split at h
      · rcases List.mem_cons.mp h with h | h
        · exact .inl h
        · exact .inr (List.mem_cons_of_mem _ h)
      · rcases List.mem_cons.mp h with h | h
        · exact .inr (h ▸ List.mem_cons_self)
        · exact (ih h).imp id (List.mem_cons_of_mem _)

theorem Cells.put_sorted {a : Nat} {b : Byte} {m : List Host.Cell} (h : m.Pairwise (fun c c' => c.1 < c'.1)) :
    (Cells.put a b m).Pairwise (fun c c' => c.1 < c'.1) := by
  induction m with
  | nil => simp [Cells.put]
  | cons x rest ih =>
    obtain ⟨y, v⟩ := x
    have hr := List.pairwise_cons.mp h
    unfold Cells.put
    split
    · rename_i lt
      refine List.pairwise_cons.mpr ⟨fun c hc => ?_, h⟩
      rcases List.mem_cons.mp hc with rfl | hc
      · exact lt
      · exact lt.trans (hr.1 c hc)
    · split
      · rename_i _ e
        exact List.pairwise_cons.mpr ⟨fun c hc => e ▸ hr.1 c hc, hr.2⟩
      · rename_i nlt ne
        refine List.pairwise_cons.mpr ⟨fun c hc => ?_, ih hr.2⟩
        rcases Cells.mem_put hc with rfl | hc
        · exact lt_of_le_of_ne (Nat.le_of_not_lt nlt) fun e => ne e.symm
        · exact hr.1 c hc

/-! ### The canonical form is kept -/

theorem Shadow.write_wf {m : List Host.Cell} (h : Memory.wf m) (off : Nat) (b : Byte) :
    Memory.wf (Shadow.write m off b) := by
  unfold Shadow.write
  split
  · exact ⟨h.1.sublist (List.filter_sublist), fun c hc => h.2 c (List.mem_of_mem_filter hc)⟩
  · rename_i ne
    refine ⟨Cells.put_sorted h.1, fun c hc => ?_⟩
    rcases Cells.mem_put hc with rfl | hc
    · exact ne
    · exact h.2 c hc

theorem Shadow.overlay_wf {m : List Host.Cell} (h : Memory.wf m) (cells : List Host.Cell) :
    Memory.wf (Shadow.overlay m cells) := by
  unfold Shadow.overlay
  induction cells generalizing m with
  | nil => exact h
  | cons c rest ih => exact ih (Shadow.write_wf h c.1 c.2)

theorem reset_setup_wf : Memory.wf State.reset.setup := ⟨List.Pairwise.nil, fun _ h => absurd h List.not_mem_nil⟩

/-! ### Reading after writing -/

theorem Cells.find_put (a x : Nat) (b : Byte) (m : List Host.Cell) :
    Cells.find x (Cells.put a b m) = if x = a then some b else Cells.find x m := by
  induction m with
  | nil =>
    unfold Cells.put Cells.find
    split <;> rename_i e <;> simp [Cells.find, e, eq_comm]
  | cons y rest ih =>
    obtain ⟨y, v⟩ := y
    unfold Cells.put
    split
    · simp only [Cells.find]
      by_cases e : a = x <;> simp [e, eq_comm]
    · split
      · rename_i _ e
        subst e
        simp only [Cells.find]
        by_cases e : a = x <;> simp [e, eq_comm]
      · simp only [Cells.find]
        split
        · rename_i _ ne e
          subst e
          rw [if_neg (fun h => ne h.symm)]
        · exact ih

theorem Cells.find_erase (a x : Nat) (m : List Host.Cell) :
    Cells.find x (Cells.erase a m) = if x = a then none else Cells.find x m := by
  induction m with
  | nil =>
    show none = _
    split <;> rfl
  | cons y rest ih =>
    obtain ⟨y, v⟩ := y
    unfold Cells.erase at *
    by_cases e : y = a
    · subst e
      simp only [List.filter, bne_self_eq_false, Cells.find]
      rw [ih]
      split
      · rfl
      · rename_i ne
        rw [if_neg fun h => ne h.symm]
    · have : (y != a) = true := by simpa using e
      simp only [List.filter, this, Cells.find]
      by_cases h : y = x
      · subst h
        simp [e]
      · simp only [h, if_false]
        exact ih

/-- A byte of the shadows after one byte is written. -/
theorem Shadow.read_write (m : List Host.Cell) (off x : Nat) (b : Byte) :
    Shadow.read (Shadow.write m off b) x = if x = off then b else Shadow.read m x := by
  unfold Shadow.read Shadow.write
  split
  · rename_i e
    rw [Cells.find_erase]
    split
    · rename_i h
      subst h
      exact e.symm
    · rfl
  · rw [Cells.find_put]
    split <;> rfl

/-- A byte that no cell names is left by an overlay. -/
theorem Shadow.read_overlay_other (cells : List Host.Cell) (m : List Host.Cell) (x : Nat)
    (h : ∀ c ∈ cells, c.1 ≠ x) : Shadow.read (Shadow.overlay m cells) x = Shadow.read m x := by
  unfold Shadow.overlay
  induction cells generalizing m with
  | nil => rfl
  | cons c rest ih =>
    rw [List.foldl_cons, ih _ (fun d hd => h d (List.mem_cons_of_mem _ hd)), Shadow.read_write,
      if_neg fun e => h c List.mem_cons_self e.symm]

end Sys2Proof.Machine
end

