-- ==== Sys2Proof/Laws/State.lean ====
section
/-!
SUPPORT. The state's parts after an update of one of them: one lemma per field per update, by rfl, and what reading one
numbered part gives after a change of it or of another.
-/

namespace Sys2Proof.Machine

variable (s : State)

/-! ### Vectors -/

theorem getElem_modifyAt {α : Type} {n : Nat} (v : Vector α n) (i j : Fin n) (f : α → α) :
    (modifyAt v i f)[j] = if i = j then f v[i] else v[j] := by
  simp only [modifyAt, Fin.getElem_fin, Vector.getElem_set]
  split <;> rename_i h
  · rw [if_pos (Fin.ext h)]
  · rw [if_neg (fun e => h (congrArg Fin.val e))]

/-! ### After onStory -/

@[simp] theorem onStory_mode (h : HandleId) (f : Story → Story) : (s.onStory h f).mode = s.mode := rfl
@[simp] theorem onStory_straps (h : HandleId) (f : Story → Story) : (s.onStory h f).straps = s.straps := rfl
@[simp] theorem onStory_setup (h : HandleId) (f : Story → Story) : (s.onStory h f).setup = s.setup := rfl
@[simp] theorem onStory_stage (h : HandleId) (f : Story → Story) : (s.onStory h f).stage = s.stage := rfl
@[simp] theorem onStory_fifo (h : HandleId) (f : Story → Story) : (s.onStory h f).fifo = s.fifo := rfl
@[simp] theorem onStory_entries (h : HandleId) (f : Story → Story) : (s.onStory h f).entries = s.entries := rfl
@[simp] theorem onStory_port (h : HandleId) (f : Story → Story) : (s.onStory h f).port = s.port := rfl
@[simp] theorem onStory_hold (h : HandleId) (f : Story → Story) : (s.onStory h f).hold = s.hold := rfl
@[simp] theorem onStory_ownWait (h : HandleId) (f : Story → Story) : (s.onStory h f).ownWait = s.ownWait := rfl
@[simp] theorem onStory_lastOwn (h : HandleId) (f : Story → Story) : (s.onStory h f).lastOwn = s.lastOwn := rfl
@[simp] theorem onStory_downBus (h : HandleId) (f : Story → Story) : (s.onStory h f).downBus = s.downBus := rfl
@[simp] theorem onStory_upBus (h : HandleId) (f : Story → Story) : (s.onStory h f).upBus = s.upBus := rfl
@[simp] theorem onStory_windows (h : HandleId) (f : Story → Story) : (s.onStory h f).windows = s.windows := rfl
@[simp] theorem onStory_completion (h : HandleId) (f : Story → Story) : (s.onStory h f).completion = s.completion := rfl
@[simp] theorem onStory_desks (h : HandleId) (f : Story → Story) : (s.onStory h f).desks = s.desks := rfl
@[simp] theorem onStory_fetchPointer (h : HandleId) (f : Story → Story) : (s.onStory h f).fetchPointer = s.fetchPointer := rfl
@[simp] theorem onStory_trunks (h : HandleId) (f : Story → Story) : (s.onStory h f).trunks = s.trunks := rfl
@[simp] theorem onStory_writer (h : HandleId) (f : Story → Story) : (s.onStory h f).writer = s.writer := rfl
@[simp] theorem onStory_clock (h : HandleId) (f : Story → Story) : (s.onStory h f).clock = s.clock := rfl
@[simp] theorem onStory_freeUse (h : HandleId) (f : Story → Story) : (s.onStory h f).freeUse = s.freeUse := rfl
@[simp] theorem onStory_pending (h : HandleId) (f : Story → Story) : (s.onStory h f).pending = s.pending := rfl

/-! ### After onDesk -/

@[simp] theorem onDesk_mode (d : DeskId) (f : Desk → Desk) : (s.onDesk d f).mode = s.mode := rfl
@[simp] theorem onDesk_straps (d : DeskId) (f : Desk → Desk) : (s.onDesk d f).straps = s.straps := rfl
@[simp] theorem onDesk_setup (d : DeskId) (f : Desk → Desk) : (s.onDesk d f).setup = s.setup := rfl
@[simp] theorem onDesk_stage (d : DeskId) (f : Desk → Desk) : (s.onDesk d f).stage = s.stage := rfl
@[simp] theorem onDesk_fifo (d : DeskId) (f : Desk → Desk) : (s.onDesk d f).fifo = s.fifo := rfl
@[simp] theorem onDesk_entries (d : DeskId) (f : Desk → Desk) : (s.onDesk d f).entries = s.entries := rfl
@[simp] theorem onDesk_port (d : DeskId) (f : Desk → Desk) : (s.onDesk d f).port = s.port := rfl
@[simp] theorem onDesk_hold (d : DeskId) (f : Desk → Desk) : (s.onDesk d f).hold = s.hold := rfl
@[simp] theorem onDesk_ownWait (d : DeskId) (f : Desk → Desk) : (s.onDesk d f).ownWait = s.ownWait := rfl
@[simp] theorem onDesk_lastOwn (d : DeskId) (f : Desk → Desk) : (s.onDesk d f).lastOwn = s.lastOwn := rfl
@[simp] theorem onDesk_downBus (d : DeskId) (f : Desk → Desk) : (s.onDesk d f).downBus = s.downBus := rfl
@[simp] theorem onDesk_upBus (d : DeskId) (f : Desk → Desk) : (s.onDesk d f).upBus = s.upBus := rfl
@[simp] theorem onDesk_windows (d : DeskId) (f : Desk → Desk) : (s.onDesk d f).windows = s.windows := rfl
@[simp] theorem onDesk_stories (d : DeskId) (f : Desk → Desk) : (s.onDesk d f).stories = s.stories := rfl
@[simp] theorem onDesk_completion (d : DeskId) (f : Desk → Desk) : (s.onDesk d f).completion = s.completion := rfl
@[simp] theorem onDesk_fetchPointer (d : DeskId) (f : Desk → Desk) : (s.onDesk d f).fetchPointer = s.fetchPointer := rfl
@[simp] theorem onDesk_trunks (d : DeskId) (f : Desk → Desk) : (s.onDesk d f).trunks = s.trunks := rfl
@[simp] theorem onDesk_writer (d : DeskId) (f : Desk → Desk) : (s.onDesk d f).writer = s.writer := rfl
@[simp] theorem onDesk_clock (d : DeskId) (f : Desk → Desk) : (s.onDesk d f).clock = s.clock := rfl
@[simp] theorem onDesk_freeUse (d : DeskId) (f : Desk → Desk) : (s.onDesk d f).freeUse = s.freeUse := rfl
@[simp] theorem onDesk_pending (d : DeskId) (f : Desk → Desk) : (s.onDesk d f).pending = s.pending := rfl

/-! ### After onWindow -/

@[simp] theorem onWindow_mode (w : WindowId) (f : Window → Window) : (s.onWindow w f).mode = s.mode := rfl
@[simp] theorem onWindow_straps (w : WindowId) (f : Window → Window) : (s.onWindow w f).straps = s.straps := rfl
@[simp] theorem onWindow_setup (w : WindowId) (f : Window → Window) : (s.onWindow w f).setup = s.setup := rfl
@[simp] theorem onWindow_stage (w : WindowId) (f : Window → Window) : (s.onWindow w f).stage = s.stage := rfl
@[simp] theorem onWindow_fifo (w : WindowId) (f : Window → Window) : (s.onWindow w f).fifo = s.fifo := rfl
@[simp] theorem onWindow_entries (w : WindowId) (f : Window → Window) : (s.onWindow w f).entries = s.entries := rfl
@[simp] theorem onWindow_port (w : WindowId) (f : Window → Window) : (s.onWindow w f).port = s.port := rfl
@[simp] theorem onWindow_hold (w : WindowId) (f : Window → Window) : (s.onWindow w f).hold = s.hold := rfl
@[simp] theorem onWindow_ownWait (w : WindowId) (f : Window → Window) : (s.onWindow w f).ownWait = s.ownWait := rfl
@[simp] theorem onWindow_lastOwn (w : WindowId) (f : Window → Window) : (s.onWindow w f).lastOwn = s.lastOwn := rfl
@[simp] theorem onWindow_downBus (w : WindowId) (f : Window → Window) : (s.onWindow w f).downBus = s.downBus := rfl
@[simp] theorem onWindow_upBus (w : WindowId) (f : Window → Window) : (s.onWindow w f).upBus = s.upBus := rfl
@[simp] theorem onWindow_stories (w : WindowId) (f : Window → Window) : (s.onWindow w f).stories = s.stories := rfl
@[simp] theorem onWindow_completion (w : WindowId) (f : Window → Window) : (s.onWindow w f).completion = s.completion := rfl
@[simp] theorem onWindow_desks (w : WindowId) (f : Window → Window) : (s.onWindow w f).desks = s.desks := rfl
@[simp] theorem onWindow_fetchPointer (w : WindowId) (f : Window → Window) : (s.onWindow w f).fetchPointer = s.fetchPointer := rfl
@[simp] theorem onWindow_trunks (w : WindowId) (f : Window → Window) : (s.onWindow w f).trunks = s.trunks := rfl
@[simp] theorem onWindow_writer (w : WindowId) (f : Window → Window) : (s.onWindow w f).writer = s.writer := rfl
@[simp] theorem onWindow_clock (w : WindowId) (f : Window → Window) : (s.onWindow w f).clock = s.clock := rfl
@[simp] theorem onWindow_freeUse (w : WindowId) (f : Window → Window) : (s.onWindow w f).freeUse = s.freeUse := rfl
@[simp] theorem onWindow_pending (w : WindowId) (f : Window → Window) : (s.onWindow w f).pending = s.pending := rfl

/-! ### After onTrunk -/

@[simp] theorem onTrunk_mode (t : TrunkId) (f : Trunk → Trunk) : (s.onTrunk t f).mode = s.mode := rfl
@[simp] theorem onTrunk_straps (t : TrunkId) (f : Trunk → Trunk) : (s.onTrunk t f).straps = s.straps := rfl
@[simp] theorem onTrunk_setup (t : TrunkId) (f : Trunk → Trunk) : (s.onTrunk t f).setup = s.setup := rfl
@[simp] theorem onTrunk_stage (t : TrunkId) (f : Trunk → Trunk) : (s.onTrunk t f).stage = s.stage := rfl
@[simp] theorem onTrunk_fifo (t : TrunkId) (f : Trunk → Trunk) : (s.onTrunk t f).fifo = s.fifo := rfl
@[simp] theorem onTrunk_entries (t : TrunkId) (f : Trunk → Trunk) : (s.onTrunk t f).entries = s.entries := rfl
@[simp] theorem onTrunk_port (t : TrunkId) (f : Trunk → Trunk) : (s.onTrunk t f).port = s.port := rfl
@[simp] theorem onTrunk_hold (t : TrunkId) (f : Trunk → Trunk) : (s.onTrunk t f).hold = s.hold := rfl
@[simp] theorem onTrunk_ownWait (t : TrunkId) (f : Trunk → Trunk) : (s.onTrunk t f).ownWait = s.ownWait := rfl
@[simp] theorem onTrunk_lastOwn (t : TrunkId) (f : Trunk → Trunk) : (s.onTrunk t f).lastOwn = s.lastOwn := rfl
@[simp] theorem onTrunk_downBus (t : TrunkId) (f : Trunk → Trunk) : (s.onTrunk t f).downBus = s.downBus := rfl
@[simp] theorem onTrunk_upBus (t : TrunkId) (f : Trunk → Trunk) : (s.onTrunk t f).upBus = s.upBus := rfl
@[simp] theorem onTrunk_windows (t : TrunkId) (f : Trunk → Trunk) : (s.onTrunk t f).windows = s.windows := rfl
@[simp] theorem onTrunk_stories (t : TrunkId) (f : Trunk → Trunk) : (s.onTrunk t f).stories = s.stories := rfl
@[simp] theorem onTrunk_completion (t : TrunkId) (f : Trunk → Trunk) : (s.onTrunk t f).completion = s.completion := rfl
@[simp] theorem onTrunk_desks (t : TrunkId) (f : Trunk → Trunk) : (s.onTrunk t f).desks = s.desks := rfl
@[simp] theorem onTrunk_fetchPointer (t : TrunkId) (f : Trunk → Trunk) : (s.onTrunk t f).fetchPointer = s.fetchPointer := rfl
@[simp] theorem onTrunk_writer (t : TrunkId) (f : Trunk → Trunk) : (s.onTrunk t f).writer = s.writer := rfl
@[simp] theorem onTrunk_clock (t : TrunkId) (f : Trunk → Trunk) : (s.onTrunk t f).clock = s.clock := rfl
@[simp] theorem onTrunk_freeUse (t : TrunkId) (f : Trunk → Trunk) : (s.onTrunk t f).freeUse = s.freeUse := rfl
@[simp] theorem onTrunk_pending (t : TrunkId) (f : Trunk → Trunk) : (s.onTrunk t f).pending = s.pending := rfl

/-! ### After onReceiver -/

@[simp] theorem onReceiver_mode (t : TrunkId) (f : Receiver → Receiver) : (s.onReceiver t f).mode = s.mode := rfl
@[simp] theorem onReceiver_straps (t : TrunkId) (f : Receiver → Receiver) : (s.onReceiver t f).straps = s.straps := rfl
@[simp] theorem onReceiver_setup (t : TrunkId) (f : Receiver → Receiver) : (s.onReceiver t f).setup = s.setup := rfl
@[simp] theorem onReceiver_stage (t : TrunkId) (f : Receiver → Receiver) : (s.onReceiver t f).stage = s.stage := rfl
@[simp] theorem onReceiver_fifo (t : TrunkId) (f : Receiver → Receiver) : (s.onReceiver t f).fifo = s.fifo := rfl
@[simp] theorem onReceiver_entries (t : TrunkId) (f : Receiver → Receiver) : (s.onReceiver t f).entries = s.entries := rfl
@[simp] theorem onReceiver_port (t : TrunkId) (f : Receiver → Receiver) : (s.onReceiver t f).port = s.port := rfl
@[simp] theorem onReceiver_hold (t : TrunkId) (f : Receiver → Receiver) : (s.onReceiver t f).hold = s.hold := rfl
@[simp] theorem onReceiver_ownWait (t : TrunkId) (f : Receiver → Receiver) : (s.onReceiver t f).ownWait = s.ownWait := rfl
@[simp] theorem onReceiver_lastOwn (t : TrunkId) (f : Receiver → Receiver) : (s.onReceiver t f).lastOwn = s.lastOwn := rfl
@[simp] theorem onReceiver_downBus (t : TrunkId) (f : Receiver → Receiver) : (s.onReceiver t f).downBus = s.downBus := rfl
@[simp] theorem onReceiver_upBus (t : TrunkId) (f : Receiver → Receiver) : (s.onReceiver t f).upBus = s.upBus := rfl
@[simp] theorem onReceiver_windows (t : TrunkId) (f : Receiver → Receiver) : (s.onReceiver t f).windows = s.windows := rfl
@[simp] theorem onReceiver_stories (t : TrunkId) (f : Receiver → Receiver) : (s.onReceiver t f).stories = s.stories := rfl
@[simp] theorem onReceiver_completion (t : TrunkId) (f : Receiver → Receiver) : (s.onReceiver t f).completion = s.completion := rfl
@[simp] theorem onReceiver_desks (t : TrunkId) (f : Receiver → Receiver) : (s.onReceiver t f).desks = s.desks := rfl
@[simp] theorem onReceiver_fetchPointer (t : TrunkId) (f : Receiver → Receiver) : (s.onReceiver t f).fetchPointer = s.fetchPointer := rfl
@[simp] theorem onReceiver_writer (t : TrunkId) (f : Receiver → Receiver) : (s.onReceiver t f).writer = s.writer := rfl
@[simp] theorem onReceiver_clock (t : TrunkId) (f : Receiver → Receiver) : (s.onReceiver t f).clock = s.clock := rfl
@[simp] theorem onReceiver_freeUse (t : TrunkId) (f : Receiver → Receiver) : (s.onReceiver t f).freeUse = s.freeUse := rfl
@[simp] theorem onReceiver_pending (t : TrunkId) (f : Receiver → Receiver) : (s.onReceiver t f).pending = s.pending := rfl

/-! ### After onBringUp -/

@[simp] theorem onBringUp_mode (t : TrunkId) (f : BringUp → BringUp) : (s.onBringUp t f).mode = s.mode := rfl
@[simp] theorem onBringUp_straps (t : TrunkId) (f : BringUp → BringUp) : (s.onBringUp t f).straps = s.straps := rfl
@[simp] theorem onBringUp_setup (t : TrunkId) (f : BringUp → BringUp) : (s.onBringUp t f).setup = s.setup := rfl
@[simp] theorem onBringUp_stage (t : TrunkId) (f : BringUp → BringUp) : (s.onBringUp t f).stage = s.stage := rfl
@[simp] theorem onBringUp_fifo (t : TrunkId) (f : BringUp → BringUp) : (s.onBringUp t f).fifo = s.fifo := rfl
@[simp] theorem onBringUp_entries (t : TrunkId) (f : BringUp → BringUp) : (s.onBringUp t f).entries = s.entries := rfl
@[simp] theorem onBringUp_port (t : TrunkId) (f : BringUp → BringUp) : (s.onBringUp t f).port = s.port := rfl
@[simp] theorem onBringUp_hold (t : TrunkId) (f : BringUp → BringUp) : (s.onBringUp t f).hold = s.hold := rfl
@[simp] theorem onBringUp_ownWait (t : TrunkId) (f : BringUp → BringUp) : (s.onBringUp t f).ownWait = s.ownWait := rfl
@[simp] theorem onBringUp_lastOwn (t : TrunkId) (f : BringUp → BringUp) : (s.onBringUp t f).lastOwn = s.lastOwn := rfl
@[simp] theorem onBringUp_downBus (t : TrunkId) (f : BringUp → BringUp) : (s.onBringUp t f).downBus = s.downBus := rfl
@[simp] theorem onBringUp_upBus (t : TrunkId) (f : BringUp → BringUp) : (s.onBringUp t f).upBus = s.upBus := rfl
@[simp] theorem onBringUp_windows (t : TrunkId) (f : BringUp → BringUp) : (s.onBringUp t f).windows = s.windows := rfl
@[simp] theorem onBringUp_stories (t : TrunkId) (f : BringUp → BringUp) : (s.onBringUp t f).stories = s.stories := rfl
@[simp] theorem onBringUp_completion (t : TrunkId) (f : BringUp → BringUp) : (s.onBringUp t f).completion = s.completion := rfl
@[simp] theorem onBringUp_desks (t : TrunkId) (f : BringUp → BringUp) : (s.onBringUp t f).desks = s.desks := rfl
@[simp] theorem onBringUp_fetchPointer (t : TrunkId) (f : BringUp → BringUp) : (s.onBringUp t f).fetchPointer = s.fetchPointer := rfl
@[simp] theorem onBringUp_writer (t : TrunkId) (f : BringUp → BringUp) : (s.onBringUp t f).writer = s.writer := rfl
@[simp] theorem onBringUp_clock (t : TrunkId) (f : BringUp → BringUp) : (s.onBringUp t f).clock = s.clock := rfl
@[simp] theorem onBringUp_freeUse (t : TrunkId) (f : BringUp → BringUp) : (s.onBringUp t f).freeUse = s.freeUse := rfl
@[simp] theorem onBringUp_pending (t : TrunkId) (f : BringUp → BringUp) : (s.onBringUp t f).pending = s.pending := rfl

/-! ### After onWriter -/

@[simp] theorem onWriter_mode (f : ReportWriter → ReportWriter) : (s.onWriter f).mode = s.mode := rfl
@[simp] theorem onWriter_straps (f : ReportWriter → ReportWriter) : (s.onWriter f).straps = s.straps := rfl
@[simp] theorem onWriter_setup (f : ReportWriter → ReportWriter) : (s.onWriter f).setup = s.setup := rfl
@[simp] theorem onWriter_stage (f : ReportWriter → ReportWriter) : (s.onWriter f).stage = s.stage := rfl
@[simp] theorem onWriter_fifo (f : ReportWriter → ReportWriter) : (s.onWriter f).fifo = s.fifo := rfl
@[simp] theorem onWriter_entries (f : ReportWriter → ReportWriter) : (s.onWriter f).entries = s.entries := rfl
@[simp] theorem onWriter_port (f : ReportWriter → ReportWriter) : (s.onWriter f).port = s.port := rfl
@[simp] theorem onWriter_hold (f : ReportWriter → ReportWriter) : (s.onWriter f).hold = s.hold := rfl
@[simp] theorem onWriter_ownWait (f : ReportWriter → ReportWriter) : (s.onWriter f).ownWait = s.ownWait := rfl
@[simp] theorem onWriter_lastOwn (f : ReportWriter → ReportWriter) : (s.onWriter f).lastOwn = s.lastOwn := rfl
@[simp] theorem onWriter_downBus (f : ReportWriter → ReportWriter) : (s.onWriter f).downBus = s.downBus := rfl
@[simp] theorem onWriter_upBus (f : ReportWriter → ReportWriter) : (s.onWriter f).upBus = s.upBus := rfl
@[simp] theorem onWriter_windows (f : ReportWriter → ReportWriter) : (s.onWriter f).windows = s.windows := rfl
@[simp] theorem onWriter_stories (f : ReportWriter → ReportWriter) : (s.onWriter f).stories = s.stories := rfl
@[simp] theorem onWriter_completion (f : ReportWriter → ReportWriter) : (s.onWriter f).completion = s.completion := rfl
@[simp] theorem onWriter_desks (f : ReportWriter → ReportWriter) : (s.onWriter f).desks = s.desks := rfl
@[simp] theorem onWriter_fetchPointer (f : ReportWriter → ReportWriter) : (s.onWriter f).fetchPointer = s.fetchPointer := rfl
@[simp] theorem onWriter_trunks (f : ReportWriter → ReportWriter) : (s.onWriter f).trunks = s.trunks := rfl
@[simp] theorem onWriter_clock (f : ReportWriter → ReportWriter) : (s.onWriter f).clock = s.clock := rfl
@[simp] theorem onWriter_freeUse (f : ReportWriter → ReportWriter) : (s.onWriter f).freeUse = s.freeUse := rfl
@[simp] theorem onWriter_pending (f : ReportWriter → ReportWriter) : (s.onWriter f).pending = s.pending := rfl

/-! ### Numbered parts -/

@[simp] theorem story_onStory (h k : HandleId) (f : Story → Story) :
    (s.onStory h f).story k = if h = k then f (s.story h) else s.story k := getElem_modifyAt _ h k f

@[simp] theorem desk_onDesk (d e : DeskId) (f : Desk → Desk) :
    (s.onDesk d f).desk e = if d = e then f (s.desk d) else s.desk e := getElem_modifyAt _ d e f

@[simp] theorem window_onWindow (w v : WindowId) (f : Window → Window) :
    (s.onWindow w f).window v = if w = v then f (s.window w) else s.window v := getElem_modifyAt _ w v f

@[simp] theorem trunk_onTrunk (t u : TrunkId) (f : Trunk → Trunk) :
    (s.onTrunk t f).trunk u = if t = u then f (s.trunk t) else s.trunk u := getElem_modifyAt _ t u f

@[simp] theorem writer_onWriter (f : ReportWriter → ReportWriter) : (s.onWriter f).writer = f s.writer := rfl

@[simp] theorem desk_onStory (h : HandleId) (f : Story → Story) (e : DeskId) : (s.onStory h f).desk e = s.desk e := rfl
@[simp] theorem window_onStory (h : HandleId) (f : Story → Story) (v : WindowId) : (s.onStory h f).window v = s.window v := rfl
@[simp] theorem trunk_onStory (h : HandleId) (f : Story → Story) (u : TrunkId) : (s.onStory h f).trunk u = s.trunk u := rfl
@[simp] theorem story_onDesk (d : DeskId) (f : Desk → Desk) (k : HandleId) : (s.onDesk d f).story k = s.story k := rfl
@[simp] theorem window_onDesk (d : DeskId) (f : Desk → Desk) (v : WindowId) : (s.onDesk d f).window v = s.window v := rfl
@[simp] theorem trunk_onDesk (d : DeskId) (f : Desk → Desk) (u : TrunkId) : (s.onDesk d f).trunk u = s.trunk u := rfl
@[simp] theorem story_onWindow (w : WindowId) (f : Window → Window) (k : HandleId) : (s.onWindow w f).story k = s.story k := rfl
@[simp] theorem desk_onWindow (w : WindowId) (f : Window → Window) (e : DeskId) : (s.onWindow w f).desk e = s.desk e := rfl
@[simp] theorem trunk_onWindow (w : WindowId) (f : Window → Window) (u : TrunkId) : (s.onWindow w f).trunk u = s.trunk u := rfl
@[simp] theorem story_onTrunk (t : TrunkId) (f : Trunk → Trunk) (k : HandleId) : (s.onTrunk t f).story k = s.story k := rfl
@[simp] theorem desk_onTrunk (t : TrunkId) (f : Trunk → Trunk) (e : DeskId) : (s.onTrunk t f).desk e = s.desk e := rfl
@[simp] theorem window_onTrunk (t : TrunkId) (f : Trunk → Trunk) (v : WindowId) : (s.onTrunk t f).window v = s.window v := rfl
@[simp] theorem story_onReceiver (t : TrunkId) (f : Receiver → Receiver) (k : HandleId) : (s.onReceiver t f).story k = s.story k := rfl
@[simp] theorem desk_onReceiver (t : TrunkId) (f : Receiver → Receiver) (e : DeskId) : (s.onReceiver t f).desk e = s.desk e := rfl
@[simp] theorem window_onReceiver (t : TrunkId) (f : Receiver → Receiver) (v : WindowId) : (s.onReceiver t f).window v = s.window v := rfl
@[simp] theorem story_onBringUp (t : TrunkId) (f : BringUp → BringUp) (k : HandleId) : (s.onBringUp t f).story k = s.story k := rfl
@[simp] theorem desk_onBringUp (t : TrunkId) (f : BringUp → BringUp) (e : DeskId) : (s.onBringUp t f).desk e = s.desk e := rfl
@[simp] theorem window_onBringUp (t : TrunkId) (f : BringUp → BringUp) (v : WindowId) : (s.onBringUp t f).window v = s.window v := rfl
@[simp] theorem story_onWriter (f : ReportWriter → ReportWriter) (k : HandleId) : (s.onWriter f).story k = s.story k := rfl
@[simp] theorem desk_onWriter (f : ReportWriter → ReportWriter) (e : DeskId) : (s.onWriter f).desk e = s.desk e := rfl
@[simp] theorem window_onWriter (f : ReportWriter → ReportWriter) (v : WindowId) : (s.onWriter f).window v = s.window v := rfl
@[simp] theorem trunk_onWriter (f : ReportWriter → ReportWriter) (u : TrunkId) : (s.onWriter f).trunk u = s.trunk u := rfl

/-! ### Two updates of one part, and updates of different parts -/

theorem modifyAt_modifyAt {α : Type} {n : Nat} (v : Vector α n) (i : Fin n) (f g : α → α) :
    modifyAt (modifyAt v i f) i g = modifyAt v i fun x => g (f x) := by
  simp only [modifyAt, Fin.getElem_fin, Vector.getElem_set_self, Vector.set_set]

theorem modifyAt_congr {α : Type} {n : Nat} (v : Vector α n) (i : Fin n) (f g : α → α) (e : f v[i] = g v[i]) :
    modifyAt v i f = modifyAt v i g := by
  simp only [modifyAt, e]

theorem modifyAt_self {α : Type} {n : Nat} (v : Vector α n) (i : Fin n) (f : α → α) (e : f v[i] = v[i]) :
    modifyAt v i f = v := by
  rw [modifyAt, e]
  exact Vector.set_getElem_self i.isLt

theorem onStory_onStory (h : HandleId) (f g : Story → Story) :
    (s.onStory h f).onStory h g = s.onStory h fun r => g (f r) := by
  simp only [State.onStory, modifyAt_modifyAt]

theorem onDesk_onDesk (d : DeskId) (f g : Desk → Desk) : (s.onDesk d f).onDesk d g = s.onDesk d fun k => g (f k) := by
  simp only [State.onDesk, modifyAt_modifyAt]

theorem onWindow_onWindow (w : WindowId) (f g : Window → Window) :
    (s.onWindow w f).onWindow w g = s.onWindow w fun k => g (f k) := by
  simp only [State.onWindow, modifyAt_modifyAt]

theorem onTrunk_onTrunk (t : TrunkId) (f g : Trunk → Trunk) :
    (s.onTrunk t f).onTrunk t g = s.onTrunk t fun k => g (f k) := by
  simp only [State.onTrunk, modifyAt_modifyAt]

theorem onStory_congr {h : HandleId} {f g : Story → Story} (e : f (s.story h) = g (s.story h)) :
    s.onStory h f = s.onStory h g := by
  simp only [State.onStory, modifyAt_congr s.stories h f g e]

theorem onDesk_congr {d : DeskId} {f g : Desk → Desk} (e : f (s.desk d) = g (s.desk d)) : s.onDesk d f = s.onDesk d g := by
  simp only [State.onDesk, modifyAt_congr s.desks d f g e]

theorem onWindow_congr {w : WindowId} {f g : Window → Window} (e : f (s.window w) = g (s.window w)) :
    s.onWindow w f = s.onWindow w g := by
  simp only [State.onWindow, modifyAt_congr s.windows w f g e]

theorem onTrunk_congr {t : TrunkId} {f g : Trunk → Trunk} (e : f (s.trunk t) = g (s.trunk t)) :
    s.onTrunk t f = s.onTrunk t g := by
  simp only [State.onTrunk, modifyAt_congr s.trunks t f g e]

theorem onDesk_self {d : DeskId} {f : Desk → Desk} (e : f (s.desk d) = s.desk d) : s.onDesk d f = s := by
  simp only [State.onDesk, modifyAt_self s.desks d f e]

theorem onTrunk_self {t : TrunkId} {f : Trunk → Trunk} (e : f (s.trunk t) = s.trunk t) : s.onTrunk t f = s := by
  simp only [State.onTrunk, modifyAt_self s.trunks t f e]

theorem onDesk_onStory (d : DeskId) (h : HandleId) (f : Desk → Desk) (g : Story → Story) :
    (s.onDesk d f).onStory h g = (s.onStory h g).onDesk d f := rfl

end Sys2Proof.Machine
end

