-- ==== Sys2Proof/Laws/Stable.lean ====
section
/-!
SUPPORT. What the operations on stories, windows, desks, trunks and reports can do to the state, said once: a property that
their few primitive changes keep is kept by every one of them. With `lim` false it gives the frame of an operation; with
`lim` true it gives the limits of desks and trunks as well.
-/

namespace Sys2Proof.Machine

open Sys2Proof.Safety

/-- A property of states that the primitive changes keep: those of a story record, a window, the completion list, the end
of a hold, a report, and a desk or a trunk that stays within its limits. -/
structure Stable (lim : Prop) (P : State → Prop) : Prop where
  desk : ∀ {s}, P s → ∀ d, lim → DeskOk (s.desk d)
  trunk : ∀ {s}, P s → ∀ t, lim → TrunkOk (s.trunk t)
  onStory : ∀ {s} h f, P s → P (s.onStory h f)
  onWindow : ∀ {s} w f, P s → P (s.onWindow w f)
  completion : ∀ {s : State} l, P s → P { s with completion := l }
  clearHold : ∀ {s}, P s → P s.clearHold
  onDesk : ∀ {s} d f, P s → (lim → DeskOk (f (s.desk d))) → P (s.onDesk d f)
  onTrunk : ∀ {s} t f, P s → (lim → TrunkOk (f (s.trunk t))) → P (s.onTrunk t f)
  report : ∀ {s} r, P s → P (s.report r)

namespace Stable

variable {lim : Prop} {P : State → Prop} (hP : Stable lim P) {s : State}
include hP

omit hP in
theorem foldl {β : Type} {f : State → β → State} (hf : ∀ s b, P s → P (f s b)) (l : List β) (h : P s) :
    P (l.foldl f s) := by
  induction l generalizing s with
  | nil => exact h
  | cons b l ih => exact ih (hf s b h)

/-! ### Flags.lean and Ops.lean -/

theorem reportPlain {k b l} (h : P s) : P (s.reportPlain k b l) := hP.report _ h
theorem reportStory {k b n l} (h : P s) : P (s.reportStory k b n l) := hP.report _ h
theorem setMark {n d m} (h : P s) : P (s.setMark n d m) := hP.onStory _ _ h
theorem addHolder {n} (h : P s) : P (s.addHolder n) := hP.onStory _ _ h
theorem releaseHolder {n} (h : P s) : P (s.releaseHolder n) := hP.onStory _ _ h
theorem testFlag {d} (h : P s) : P (s.testFlag d) := hP.onDesk _ _ h (hP.desk h d)
theorem testFlags (h : P s) : P s.testFlags := foldl (fun _ _ h => hP.testFlag h) _ h

theorem testReserve {w} (h : P s) : P (s.testReserve w) := by
  unfold State.testReserve
  split
  · split
    · exact h
    · exact hP.reportPlain (hP.onWindow _ _ h)
  · exact hP.onWindow _ _ h

theorem testRingHold (h : P s) : P s.testRingHold := by
  unfold State.testRingHold
  split
  · split
    · exact h
    · exact hP.clearHold h
  · exact h

theorem testRooms (h : P s) : P s.testRooms := hP.testRingHold (foldl (fun _ _ h => hP.testReserve h) _ h)

theorem clearTableHold (h : P s) : P s.clearTableHold := by
  unfold State.clearTableHold
  split
  · exact hP.clearHold h
  · exact h

theorem clearWindowHold {w} (h : P s) : P (s.clearWindowHold w) := by
  unfold State.clearWindowHold
  split
  · split
    · exact hP.clearHold h
    · exact h
  · split
    · exact hP.clearHold h
    · exact h
  · exact h

/-! ### Records.lean -/

theorem setStoryState {n st} (h : P s) : P (s.setStoryState n st) := hP.onStory _ _ h
theorem leaveWindowList {n} (h : P s) : P (s.leaveWindowList n) := hP.onWindow _ _ h
theorem freeStory {n} (h : P s) : P (s.freeStory n) :=
  hP.clearTableHold (hP.onStory _ _ (hP.completion _ (hP.leaveWindowList h)))
theorem reportDone {n st} (h : P s) : P (s.reportDone n st) := hP.reportStory h
theorem spendStory {n} (h : P s) : P (s.spendStory n) :=
  hP.clearTableHold (hP.reportDone (hP.leaveWindowList (hP.setStoryState h)))

theorem settleStory {n} (h : P s) : P (s.settleStory n) := by
  unfold State.settleStory
  split
  · split
    · exact hP.spendStory h
    · exact h
  · split
    · exact hP.freeStory (hP.reportDone h)
    · exact h
  · split
    · exact hP.freeStory (hP.reportDone h)
    · exact h
  all_goals exact h

theorem allocate {n w a} (h : P s) : P (s.allocate n w a) := hP.onStory _ _ (hP.completion _ h)
theorem dropGathered {w} (h : P s) : P (s.dropGathered w) := hP.onWindow _ _ h

theorem abandonOpen {w r} (h : P s) : P (s.abandonOpen w r) := by
  unfold State.abandonOpen
  split
  · exact h
  · exact hP.dropGathered (hP.freeStory (hP.reportStory h))

/-! ### Queues.lean -/

theorem dropMark {d e} (h : P s) : P (s.dropMark d e) := by
  unfold State.dropMark
  split
  · exact hP.setMark h
  · exact h

theorem reportDrop {d e b} (h : P s) : P (s.reportDrop d e b) := hP.reportStory h

end Stable

theorem placeEntry_length (e : DeskEntry) (q : List DeskEntry) : (placeEntry e q).length = q.length + 1 := by
  induction q with
  | nil => rfl
  | cons x q ih =>
    unfold placeEntry
    split
    · simp [ih]
    · rfl

namespace Stable

variable {lim : Prop} {P : State → Prop} (hP : Stable lim P) {s : State}
include hP

theorem joinQueue {d e} (h : P s) (room : lim → (s.desk d).queue.length < 32) : P (s.joinQueue d e) := by
  unfold State.joinQueue
  have h1 : P ((s.onDesk d fun k => { k with queue := placeEntry e k.queue }).addHolder e.handle) := by
    refine hP.addHolder (hP.onDesk _ _ h fun l => ?_)
    have k := hP.desk h d l
    refine ⟨?_, k.2⟩
    show (placeEntry e (s.desk d).queue).length ≤ 32
    rw [placeEntry_length]
    exact room l
  cases e.kind
  · exact hP.setMark h1
  · exact h1

theorem displaceTail {d e b} (h : P s) : P (s.displaceTail d e b) := by
  unfold State.displaceTail
  refine hP.settleStory (hP.reportDrop (hP.dropMark (hP.releaseHolder (hP.onDesk _ _ h fun l => ?_))))
  have k := hP.desk h d l
  exact ⟨by simpa using (Nat.sub_le _ 1).trans k.1, k.2⟩

end Stable

/-! ### What the story-side operations leave of a desk -/

@[simp] theorem desk_report (s : State) (r : Record) (d : DeskId) : (s.report r).desk d = s.desk d := by
  unfold State.report
  split
  · rfl
  · unfold State.setLine
    split <;> rfl

@[simp] theorem desk_clearTableHold (s : State) (d : DeskId) : s.clearTableHold.desk d = s.desk d := by
  unfold State.clearTableHold
  split <;> rfl

@[simp] theorem desk_dropMark (s : State) (e : DeskId) (x : DeskEntry) (d : DeskId) :
    (s.dropMark e x).desk d = s.desk d := by
  unfold State.dropMark
  split <;> rfl

@[simp] theorem desk_freeStory (s : State) (n : HandleId) (d : DeskId) : (s.freeStory n).desk d = s.desk d := by
  unfold State.freeStory
  rw [desk_clearTableHold]
  rfl

@[simp] theorem desk_reportDone (s : State) (n : HandleId) (st : StoryState) (d : DeskId) :
    (s.reportDone n st).desk d = s.desk d := desk_report _ _ _

@[simp] theorem desk_spendStory (s : State) (n : HandleId) (d : DeskId) : (s.spendStory n).desk d = s.desk d := by
  unfold State.spendStory
  rw [desk_clearTableHold, desk_reportDone]
  rfl

@[simp] theorem desk_settleStory (s : State) (n : HandleId) (d : DeskId) : (s.settleStory n).desk d = s.desk d := by
  unfold State.settleStory
  split
  · split <;> simp
  · split <;> simp
  · split <;> simp
  all_goals rfl

theorem desk_displaceTail (s : State) (d : DeskId) (e : DeskEntry) (b : HandleId) :
    (s.displaceTail d e b).desk d = { s.desk d with queue := (s.desk d).queue.dropLast } := by
  unfold State.displaceTail State.reportDrop State.reportStory
  simp only [desk_settleStory, desk_report, desk_dropMark]
  simp [State.releaseHolder]

namespace Stable

variable {lim : Prop} {P : State → Prop} (hP : Stable lim P) {s : State}
include hP

theorem insertEntry {d e} (h : P s) : P (s.insertEntry d e) := by
  unfold State.insertEntry
  split
  · rename_i hlt
    exact hP.joinQueue h fun _ => hlt
  · split
    · rename_i hl
      refine hP.joinQueue h fun _ => ?_
      rw [List.getLast?_eq_none_iff] at hl
      simp [hl]
    · split
      · exact hP.reportDrop (hP.dropMark h)
      · rename_i hl _
        refine hP.joinQueue (hP.displaceTail h) fun l => ?_
        have k := (hP.desk h d l).1
        rw [desk_displaceTail]
        have : (s.desk d).queue ≠ [] := by
          intro e
          simp [e] at hl
        have := List.length_pos_iff.mpr this
        simp only [List.length_dropLast]
        omega

theorem removeEntry {d n} (h : P s) : P (s.removeEntry d n) := by
  unfold State.removeEntry
  refine hP.setMark (hP.releaseHolder (hP.onDesk _ _ h fun l => ?_))
  have k := hP.desk h d l
  split
  · exact k
  · split
    · exact k
    · exact ⟨(List.length_filter_le _ _).trans k.1, k.2⟩

theorem replaceEntry {d n m} (h : P s) : P (s.replaceEntry d n m) := by
  unfold State.replaceEntry
  refine hP.setMark (hP.addHolder (hP.setMark (hP.releaseHolder (hP.onDesk _ _ h fun l => ?_))))
  have k := hP.desk h d l
  split
  · exact k
  · split
    · exact k
    · exact ⟨by simpa using k.1, k.2⟩

theorem placeNewAt {n d} (h : P s) : P (s.placeNewAt n d) := by
  unfold State.placeNewAt
  split
  · exact hP.insertEntry h
  · exact h

/-! ### Composer.lean -/

theorem putContext {d c} (h : P s) : P (s.putContext d c) := hP.onDesk _ _ h (hP.desk h d)
theorem beginTrailer {d c b} (h : P s) : P (s.beginTrailer d c b) := hP.putContext h
theorem beginHeader {d c} (h : P s) : P (s.beginHeader d c) := hP.putContext h

theorem beginText {d c o b} (h : P s) : P (s.beginText d c o b) := by
  unfold State.beginText
  dsimp only
  split
  · exact hP.putContext h
  · exact hP.beginTrailer h

theorem endItem {d c} (h : P s) : P (s.endItem d c) :=
  hP.onDesk _ _ (hP.releaseHolder h) (hP.desk (hP.releaseHolder h) d)

theorem beginNext {d c} (h : P s) (x : Continuation) : P (s.beginNext d c x) := by
  induction x with
  | finish => exact hP.endItem h
  | header => exact hP.beginHeader h
  | text o => exact hP.beginText h
  | trailer => exact hP.beginTrailer h
  | notice k n next ih =>
    unfold State.beginNext
    split
    · exact ih
    · exact hP.putContext h

theorem settleEnded {d n} (h : P s) : P (s.settleEnded d n) := by
  unfold State.settleEnded
  split
  · exact hP.settleStory h
  · exact h

theorem giveFollowOn {d} (h : P s) (x : Option HandleId) : P (s.giveFollowOn d x) := by
  cases x
  · exact h
  · exact hP.setMark (hP.addHolder h)

theorem sameDesk {d f} (h : P s)
    (q : (f (s.desk d)).queue.length ≤ (s.desk d).queue.length := by first | rfl | simp)
    (b : (f (s.desk d)).buffer.length ≤ (s.desk d).buffer.length := by first | rfl | simp)
    (u : (f (s.desk d)).underruns ≤ (s.desk d).underruns := by first | rfl | simp) : P (s.onDesk d f) :=
  hP.onDesk _ _ h fun l => have k := hP.desk h d l; ⟨q.trans k.1, b.trans k.2.1, u.trans k.2.2⟩

theorem cutCurrent {d c k f} (h : P s) : P (s.cutCurrent d c k f) := by
  unfold State.cutCurrent
  dsimp only
  refine hP.beginNext (hP.sameDesk (hP.giveFollowOn (hP.reportStory (hP.setMark (hP.sameDesk h (Nat.le_refl _)
    ?_ (Nat.le_refl _)))) _) (Nat.le_refl _) (Nat.le_refl _) (Nat.le_refl _)) _
  simp [untag]

theorem cutSaved {d v k f} (h : P s) : P (s.cutSaved d v k f) := by
  unfold State.cutSaved
  dsimp only
  exact hP.sameDesk (hP.giveFollowOn (hP.reportStory (hP.setMark (hP.sameDesk h (Nat.le_refl _) (Nat.le_refl _)
    (Nat.le_refl _)))) _) (Nat.le_refl _) (Nat.le_refl _) (Nat.le_refl _)

theorem cutOrder {d n k f} (h : P s) : P (s.cutOrder d n k f) := by
  unfold State.cutOrder
  split
  · split
    · exact hP.cutCurrent h
    · exact h
  · split
    · exact hP.cutCurrent h
    · split
      · exact hP.cutSaved h
      · exact h
  · split
    · exact hP.cutSaved h
    · exact h
  · exact h

theorem takeDirect {d f} (h : P s) : P (s.takeDirect d f) :=
  hP.beginHeader (hP.setMark (hP.sameDesk h (Nat.le_refl _) (Nat.le_refl _) (Nat.le_refl _)))

theorem takeSaved {d v} (h : P s) : P (s.takeSaved d v) := by
  unfold State.takeSaved
  refine hP.settleEnded (hP.beginNext (hP.onDesk _ _ h fun l => ?_) _)
  have k := hP.desk h d l
  split <;> exact k

theorem takeHead {d e} (h : P s) : P (s.takeHead d e) := by
  unfold State.takeHead
  have h1 : P (s.onDesk d fun k => { k with queue := k.queue.tail }) :=
    hP.sameDesk h (by simp) (Nat.le_refl _) (Nat.le_refl _)
  dsimp only
  cases e.kind
  · exact hP.beginHeader (hP.setMark h1)
  · exact hP.settleEnded (hP.beginNext h1 _)

theorem takeNext {d} (h : P s) : P (s.takeNext d) := by
  unfold State.takeNext
  dsimp only
  split
  · split
    · exact hP.takeDirect h
    · split
      · exact hP.takeSaved h
      · split
        · exact hP.takeHead h
        · exact h
  · exact h

theorem breakForFlash {d c e} (h : P s) : P (s.breakForFlash d c e) := by
  unfold State.breakForFlash
  exact hP.beginNext (hP.reportStory (hP.setMark (hP.sameDesk h (by simp) (Nat.le_refl _)
    (Nat.le_refl _)))) _

theorem placeGroup {d g b} (h : P s) (room : (s.desk d).hasRoom g = true) : P (s.placeGroup d g b) := by
  unfold State.placeGroup
  refine hP.onDesk _ _ h fun l => ?_
  have k := hP.desk h d l
  refine ⟨k.1, ?_, k.2.2⟩
  have r : (s.desk d).buffer.length + g.codes.length ≤ 8 := of_decide_eq_true room
  show (appendCodes (s.desk d).buffer g.codes b).length ≤ 8
  unfold appendCodes
  cases hg : g.codes.getLast? with
  | none =>
    rw [List.getLast?_eq_none_iff] at hg
    simpa [hg] using k.2.1
  | some x =>
    have : g.codes ≠ [] := by
      intro e
      simp [e] at hg
    have := List.length_pos_iff.mpr this
    simp only [List.length_append, List.length_map, List.length_dropLast, List.length_cons, List.length_nil]
    omega

theorem afterLayout {d c} (h : P s) : P (s.afterLayout d c) := by
  unfold State.afterLayout
  split
  · exact hP.beginText h
  · exact hP.putContext h
  · exact hP.putContext h
  · split
    · exact hP.putContext h
    · exact hP.settleEnded (hP.beginNext h _)

theorem composeLayout {d c} (h : P s) : P (s.composeLayout d c) := by
  unfold State.composeLayout
  split
  · exact h
  · dsimp only
    split
    · rename_i room
      split
      · exact hP.afterLayout (hP.placeGroup h room)
      · exact hP.putContext (hP.placeGroup h room)
    · exact h

theorem composeByte {d c b} (h : P s) : P (s.composeByte d c b) := by
  unfold State.composeByte
  dsimp only
  split
  · rename_i room
    have h1 := hP.sameDesk (d := d)
      (f := fun k => { k with staging0 := k.staging0.handBack c.cursor, staging1 := k.staging1.handBack c.cursor })
      (hP.placeGroup (b := false) h room) (Nat.le_refl _) (Nat.le_refl _) (Nat.le_refl _)
    split
    · exact hP.putContext h1
    · exact hP.beginTrailer h1
  · exact h

theorem composeText {d c} (h : P s) : P (s.composeText d c) := by
  unfold State.composeText
  split
  · split
    · exact h
    · exact hP.composeByte h
  · dsimp only
    split
    · rename_i room
      exact hP.putContext (hP.placeGroup h room)
    · exact h

theorem composeOne {d} (h : P s) : P (s.composeOne d) := by
  unfold State.composeOne
  split
  · exact h
  · split
    · exact hP.composeText h
    all_goals exact hP.composeLayout h

theorem restoreItem {d c} (h : P s) : P (s.restoreItem d c) := by
  unfold State.restoreItem
  refine hP.settleEnded (hP.beginNext (hP.onDesk _ _ h fun l => ?_) _)
  have k := hP.desk h d l
  exact ⟨k.1, by simp [appendCodes, State.lineEndCodes], k.2.2⟩

theorem lineReturns {d} (h : P s) : P (s.lineReturns d) := by
  unfold State.lineReturns
  split
  · have h1 : P (s.onDesk d fun k => { k with line := false }) :=
      hP.sameDesk h (Nat.le_refl _) (Nat.le_refl _) (Nat.le_refl _)
    dsimp only
    split
    · exact h1
    · exact hP.restoreItem h1
  · exact h

/-! ### Release.lean -/

theorem retireTarget {n st} (h : P s) : P (s.retireTarget n st) := hP.setStoryState (hP.leaveWindowList h)
theorem placeNew {n} (h : P s) : P (s.placeNew n) := foldl (fun _ _ h => hP.placeNewAt h) _ h

theorem placeWriteThruAt {w t d} (h : P s) : P (State.placeWriteThruAt w t s d) := by
  unfold State.placeWriteThruAt
  split
  · split
    · split
      · exact hP.replaceEntry h
      · exact hP.insertEntry (hP.removeEntry h)
    · exact hP.cutOrder h
    · exact hP.insertEntry h
    all_goals exact hP.placeNewAt h
  · exact h

theorem placeKillAt {w t d} (h : P s) : P (State.placeKillAt w t s d) := by
  unfold State.placeKillAt
  split
  · split
    · exact hP.removeEntry h
    · exact hP.cutOrder h
    · exact hP.insertEntry h
    all_goals exact h
  · exact h

theorem hostKillAt {t d} (h : P s) : P (State.hostKillAt t s d) := by
  unfold State.hostKillAt
  split
  · exact hP.removeEntry h
  · exact hP.cutOrder h
  · split
    · exact hP.insertEntry h
    · exact h
  all_goals exact h

theorem recordTarget {n x} (h : P s) : P (s.recordTarget n x) := by
  unfold State.recordTarget
  split
  · exact hP.onStory _ _ h
  · exact hP.reportStory h

theorem placeWriteThru {n} (h : P s) (x : Option HandleId) : P (s.placeWriteThru n x) := by
  unfold State.placeWriteThru
  split
  · exact hP.placeNew h
  · split
    · exact hP.placeNew (hP.retireTarget h)
    · exact hP.retireTarget (foldl (fun _ _ h => hP.placeWriteThruAt h) _ h)

theorem placeKill {n} (h : P s) (x : Option HandleId) : P (s.placeKill n x) := by
  unfold State.placeKill
  split
  · exact h
  · split
    · exact hP.retireTarget h
    · exact hP.retireTarget (foldl (fun _ _ h => hP.placeKillAt h) _ h)

theorem reportPlaced {n x} (h : P s) : P (s.reportPlaced n x) := hP.reportStory h

theorem placeReleased {n x} (h : P s) : P (s.placeReleased n x) := by
  unfold State.placeReleased
  split
  · exact hP.placeNew h
  · exact hP.placeWriteThru (hP.recordTarget h) _
  · exact hP.placeKill (hP.recordTarget h) _

theorem releaseStory {n} (h : P s) : P (s.releaseStory n) := by
  unfold State.releaseStory
  refine hP.settleStory ?_
  have h1 := hP.setStoryState (n := n) (st := .live) h
  split
  · exact hP.settleStory (hP.reportPlaced (hP.placeReleased h1))
  · exact hP.reportPlaced (hP.placeReleased h1)

theorem reportIn {n b} (h : P s) : P (s.reportIn n b) := hP.report _ h

theorem completeStory {n c e} (h : P s) : P (s.completeStory n c e) := by
  unfold State.completeStory
  dsimp only
  have h1 := fun l => hP.completion l (hP.onStory n (fun r => { r with textCount := c, extents := e }) h)
  split
  · exact hP.reportIn (hP.setStoryState (h1 _))
  · exact hP.releaseStory (hP.reportIn (h1 _))

theorem hostKill {n} (h : P s) : P (s.hostKill n) := by
  unfold State.hostKill
  split
  · exact hP.settleStory (hP.retireTarget h)
  · exact hP.settleStory (hP.retireTarget (foldl (fun _ _ h => hP.hostKillAt h) _ h))

theorem releaseAt {m n} (h : P s) : P (State.releaseAt m s n) := by
  unfold State.releaseAt
  split
  · exact hP.releaseStory (hP.reportStory h)
  · exact h

theorem releaseMinute {m} (h : P s) : P (s.releaseMinute m) := foldl (fun _ _ h => hP.releaseAt h) _ h

end Stable

end Sys2Proof.Machine
end

