-- ==== Sys2Proof/Laws/StableSteps.lean ====
section
/-!
SUPPORT. The operations of the intake windows, the trunks, the desk commands and the clock keep what their primitive
changes keep (continued from Laws/Stable.lean).
-/

namespace Sys2Proof.Machine

open Sys2Proof.Safety

namespace Stable

variable {lim : Prop} {P : State → Prop} (hP : Stable lim P) {s : State}
include hP

/-! ### Intake.lean -/

theorem setParse {w p} (h : P s) : P (s.setParse w p) := hP.onWindow _ _ h
theorem moveIntake {w a} (h : P s) : P (s.moveIntake w a) := hP.onWindow _ _ h

theorem openAt {w a t} (h : P s) (e : s.openAt w a = some t) : P t := by
  unfold State.openAt at e
  split at e
  · cases e
  · cases e
    exact hP.onWindow _ _ (hP.allocate h)

theorem startByte {w a t} (h : P s) (e : s.startByte w a = some t) : P t := by
  unfold State.startByte at e
  split at e
  · exact hP.openAt h e
  · exact hP.openAt h e
  · exact hP.openAt (hP.abandonOpen h) e
  · exact hP.openAt (hP.abandonOpen h) e

theorem endLead {w a} (h : P s) : P (s.endLead w a) := by
  unfold State.endLead
  split
  · exact hP.setParse (hP.abandonOpen h)
  · dsimp only
    split
    · exact hP.onWindow _ _ h
    · exact hP.onWindow _ _ (hP.onStory _ _ h)

theorem leadByte {w a b} (h : P s) : P (s.leadByte w a b) := by
  unfold State.leadByte
  split
  · exact hP.endLead h
  · split
    · exact hP.setParse (hP.abandonOpen h)
    · split
      · exact hP.setParse (hP.abandonOpen h)
      · exact hP.onWindow _ _ h

theorem endText {w} (h : P s) : P (s.endText w) := by
  unfold State.endText
  dsimp only
  split
  · exact hP.setParse (hP.dropGathered h)
  · exact hP.setParse (hP.dropGathered (hP.completeStory h))

theorem textByte {w a b} (h : P s) : P (s.textByte w a b) := by
  unfold State.textByte
  split
  · exact hP.endText h
  · split
    · exact hP.setParse (hP.abandonOpen h)
    · exact hP.onWindow _ _ h

theorem parseByte {w a b t} (h : P s) (e : s.parseByte w a b = some t) : P t := by
  unfold State.parseByte at e
  split at e
  · exact hP.startByte h e
  · split at e
    · cases e
      exact h
    · split at e
      · cases e
        exact hP.setParse h
      · cases e
        exact h
    · cases e
      exact hP.leadByte h
    · cases e
      exact hP.textByte h

theorem parseBytes {w l t} (h : P s) (e : State.parseBytes w l s = .ok t) : P t := by
  induction l generalizing s with
  | nil =>
    cases e
    exact h
  | cons x l ih =>
    unfold State.parseBytes at e
    split at e
    · cases e
    · rename_i u hu
      exact ih (hP.parseByte h hu) e

theorem outOfSequence {w a} (h : P s) : P (s.outOfSequence w a) := by
  unfold State.outOfSequence
  dsimp only
  split
  · exact hP.moveIntake (hP.setParse (hP.abandonOpen h))
  · exact hP.moveIntake (hP.setParse (hP.abandonOpen h))
  · exact hP.moveIntake (hP.setParse h)
  · exact hP.moveIntake (hP.setParse h)

theorem intakeWrite {w a bs cs t} (h : P s) (e : s.intakeWrite w a bs = .forwarded cs t) : P t := by
  unfold State.intakeWrite at e
  dsimp only at e
  split at e
  · cases e
  · split at e
    · split at e
      · cases e
      · rename_i u hu
        cases e
        exact hP.moveIntake (hP.parseBytes h hu)
    · cases e
      exact hP.outOfSequence h

theorem protectWrite {w a} (h : P s) : P (s.protectWrite w a) := by
  unfold State.protectWrite
  split
  · exact hP.reportPlain (hP.onWindow _ _ h)
  · exact hP.onWindow _ _ h

theorem expireRing {w l} (h : P s) : P (s.expireRing w l) := hP.reportPlain (hP.setParse (hP.abandonOpen h))
theorem expireTable {w a l} (h : P s) : P (s.expireTable w a l) :=
  hP.reportPlain (hP.setParse (hP.moveIntake (hP.abandonOpen h)))
theorem enableWindow {w o} (h : P s) : P (s.enableWindow w o) := hP.testRooms (hP.onWindow _ _ h)
theorem disableWindow {w} (h : P s) : P (s.disableWindow w) :=
  hP.testRooms (hP.clearWindowHold (hP.onWindow _ _ (hP.abandonOpen h)))
theorem clearWindow {w} (h : P s) : P (s.clearWindow w) := hP.onWindow _ _ h

/-! ### Framer.lean -/

/-- A change of a trunk that leaves its receiver, or its limited counts, alone. -/
theorem sameTrunk {t f} (h : P s)
    (e : (f (s.trunk t)).receiver.errorCount ≤ (s.trunk t).receiver.errorCount)
    (w : (f (s.trunk t)).receiver.switchWindow ≤ (s.trunk t).receiver.switchWindow)
    (m : (f (s.trunk t)).receiver.missCount ≤ (s.trunk t).receiver.missCount)
    (r : (f (s.trunk t)).receiver.run ≤ (s.trunk t).receiver.run) : P (s.onTrunk t f) :=
  hP.onTrunk _ _ h fun l =>
    have k := hP.trunk h t l
    ⟨e.trans k.1, w.trans k.2.1, m.trans k.2.2.1, r.trans k.2.2.2⟩

theorem setTransmitter {t} {f : Trunk → Option Framing} (h : P s) :
    P (s.onTrunk t fun k => { k with transmitter := f k }) :=
  hP.sameTrunk h (Nat.le_refl _) (Nat.le_refl _) (Nat.le_refl _) (Nat.le_refl _)

theorem onBringUp {t f} (h : P s) : P (s.onBringUp t f) :=
  hP.sameTrunk h (Nat.le_refl _) (Nat.le_refl _) (Nat.le_refl _) (Nat.le_refl _)

theorem beginFrame {t} (h : P s) : P (s.beginFrame t) := hP.setTransmitter h

theorem startFraming {t} (h : P s) : P (s.startFraming t) := by
  unfold State.startFraming
  split
  · exact hP.beginFrame h
  · exact h

theorem stopFraming {t} (h : P s) : P (s.stopFraming t) := hP.setTransmitter h

theorem frameStart {t} (h : P s) : P (s.frameStart t) := by
  unfold State.frameStart
  split
  · exact hP.beginFrame h
  · exact h

theorem enterMark {t} (h : P s) : P (s.enterMark t) := by
  unfold State.enterMark
  split
  · exact h
  · split
    · split
      · exact hP.setTransmitter h
      · exact hP.beginFrame h
    · exact h

theorem endByTag {d} (h : P s) : P (s.endByTag d) := by
  unfold State.endByTag
  split
  · exact h
  · dsimp only
    split
    · exact hP.settleStory (hP.endItem (hP.setMark h))
    · exact hP.settleStory (hP.endItem h)

theorem underrun {d c} (h : P s) : P (s.underrun d c) := by
  unfold State.underrun
  have h1 : P (s.onDesk d fun k => { k with underruns := raise255 k.underruns }) := by
    refine hP.onDesk _ _ h fun l => ?_
    have k := hP.desk h d l
    refine ⟨k.1, k.2.1, ?_⟩
    show raise255 (s.desk d).underruns ≤ 255
    have := k.2.2
    unfold raise255
    split <;> omega
  dsimp only
  split
  · exact h1
  · exact hP.reportStory (hP.putContext h1)

theorem serveDesk {d} (h : P s) : P (s.serveDesk d).2 := by
  unfold State.serveDesk
  dsimp only
  split
  · exact h
  · split
    · rename_i x rest hb
      have h1 : P (s.onDesk d fun k => { k with buffer := rest }) :=
        hP.sameDesk h (Nat.le_refl _) (by simp [hb]) (Nat.le_refl _)
      dsimp only
      split
      · exact hP.endByTag h1
      · exact h1
    · split
      · exact hP.underrun h
      · exact h

theorem serveSlot {t k} (h : P s) : P (s.serveSlot t k).2 := by
  unfold State.serveSlot
  split
  · exact h
  · split
    · exact hP.serveDesk h
    · exact h

theorem flagAfterSlot {t k} (h : P s) : P (s.flagAfterSlot t k) := by
  unfold State.flagAfterSlot
  split
  · exact h
  · exact hP.testFlag h

theorem slotStart {t} (h : P s) : P (s.slotStart t) := by
  unfold State.slotStart
  split
  · exact h
  · split
    · exact hP.testRooms (hP.flagAfterSlot (hP.setTransmitter (hP.serveSlot h)))
    · exact h

/-! ### BringUp.lean -/

theorem desksLoseLine {t} (h : P s) : P (s.desksLoseLine t) :=
  foldl (fun _ _ h => hP.sameDesk h (Nat.le_refl _) (Nat.le_refl _) (Nat.le_refl _)) _ h

theorem desksRegainLine {t} (h : P s) : P (s.desksRegainLine t) := foldl (fun _ _ h => hP.lineReturns h) _ h
theorem afterUp {t} (h : P s) : P (s.afterUp t) := hP.desksLoseLine (hP.onBringUp h)

theorem restart {t a} (h : P s) : P (s.onReceiver t fun r => r.restart a) :=
  hP.sameTrunk h (Nat.le_refl _) (Nat.zero_le _) (Nat.zero_le _) (Nat.le_refl _)

theorem moveTrunk {t st a} (h : P s) : P (s.moveTrunk t st a) := hP.restart (hP.onBringUp h)

theorem enterBroken {t} (h : P s) : P (s.enterBroken t) := by
  unfold State.enterBroken
  split
  · exact hP.afterUp (hP.moveTrunk h)
  · exact hP.moveTrunk h

theorem handBreakStart {t} (h : P s) : P (s.handBreakStart t) := by
  unfold State.handBreakStart
  split
  · exact h
  · exact h
  all_goals exact hP.enterBroken h

theorem enterSearch {t} (h : P s) : P (s.enterSearch t) := by
  unfold State.enterSearch
  have h1 : P ((s.moveTrunk t .search .measuring).onReceiver t fun r => { r with mismatch := false }) :=
    hP.sameTrunk (hP.moveTrunk h) (Nat.le_refl _) (Nat.le_refl _) (Nat.le_refl _) (Nat.le_refl _)
  dsimp only
  split
  · split
    · exact hP.handBreakStart (hP.afterUp h1)
    · exact hP.handBreakStart h1
  · split
    · exact hP.afterUp h1
    · exact h1

theorem loseTrunk {t n} (h : P s) : P (s.loseTrunk t n) := hP.enterSearch (hP.reportPlain h)

theorem enterUp {t} (h : P s) : P (s.enterUp t) := by
  unfold State.enterUp
  have h1 := fun l1 l2 => hP.desksRegainLine (t := t) (hP.reportPlain (k := .trunkUp) (b := l1) (l := l2)
    (hP.onBringUp (t := t) (f := fun b => { b with state := .up, linkTimer := none, limitTimer := none }) h))
  have h2 : ∀ {u}, P u → P (u.onReceiver t fun r => { r with alignment := .data, switchWindow := 8 }) := by
    intro u hu
    refine hP.onTrunk _ _ hu fun l => ?_
    have k := hP.trunk hu t l
    exact ⟨k.1, Nat.le_refl _, k.2.2⟩
  dsimp only
  split
  · exact h2 (h1 _ _)
  · exact hP.loseTrunk (h1 _ _)

theorem enterDown {t} (h : P s) : P (s.enterDown t) := hP.stopFraming (hP.restart (hP.onBringUp h))
theorem trunkUp {t} (h : P s) : P (s.trunkUp t) := hP.enterSearch (hP.startFraming (hP.onBringUp h))

theorem trunkDown {t} (h : P s) : P (s.trunkDown t) := by
  unfold State.trunkDown
  split
  · exact hP.desksLoseLine (hP.enterDown h)
  · exact hP.enterDown h

theorem clearTrunkErrors {t} (h : P s) : P (s.clearTrunkErrors t) :=
  hP.sameTrunk h (Nat.zero_le _) (Nat.le_refl _) (Nat.le_refl _) (Nat.le_refl _)

theorem reportMismatch {t w} (h : P s) : P (s.reportMismatch t w) := hP.reportPlain h
theorem mapMismatch {t k w c} (h : P s) : P (s.mapMismatch t k w c) := hP.enterSearch (hP.reportPlain h)
theorem enterConfirm {t w} (h : P s) : P (s.enterConfirm t w) := hP.onBringUp h
theorem enterMap {t} (h : P s) : P (s.enterMap t) := hP.onBringUp h
theorem enterSettle {t} (h : P s) : P (s.enterSettle t) := hP.onBringUp h

theorem examineSearch {t w n b} (h : P s) : P (s.examineSearch t w n b) := by
  unfold State.examineSearch
  split
  · split
    · split
      · exact hP.enterConfirm h
      · split
        · exact hP.reportMismatch h
        · exact h
    · exact h
  all_goals exact h

theorem examineConfirm {t w n b} (h : P s) : P (s.examineConfirm t w n b) := by
  unfold State.examineConfirm
  split
  · split
    · split
      · split
        · split
          · exact hP.enterMap h
          · exact hP.enterSettle h
        · exact h
      · split
        · exact hP.enterSearch (hP.reportMismatch h)
        · exact hP.enterSearch h
    · exact h
  · split
    · exact hP.enterMap h
    · exact h
  · split
    · exact hP.enterSettle h
    · exact h
  · exact h

theorem stepPage {t k} (h : P s) : P (s.stepPage t k) := by
  unfold State.stepPage
  split
  · exact hP.onBringUp h
  · exact hP.enterSettle h

theorem examinePage {t p w n} (h : P s) : P (s.examinePage t p w n) := by
  unfold State.examinePage
  dsimp only
  split
  · exact hP.mapMismatch h
  · split
    · exact h
    · split
      · split
        · split
          · exact hP.stepPage h
          · exact h
        · split
          · split
            · exact hP.mapMismatch h
            · split
              · exact hP.stepPage h
              · exact hP.onBringUp h
          · exact h
      · split
        · exact hP.stepPage h
        · exact hP.mapMismatch h

theorem examineMap {t w n} (h : P s) : P (s.examineMap t w n) := by
  unfold State.examineMap
  split
  · exact h
  · split
    · exact hP.examinePage h
    · split
      · exact h
      · exact hP.enterSearch h
    · split
      · exact hP.enterSettle h
      · exact h
    · exact h

theorem examineSettle {t w} (h : P s) : P (s.examineSettle t w) := by
  unfold State.examineSettle
  split
  · split
    · exact h
    · exact hP.enterSearch h
  all_goals exact h

theorem receiveWord {t w} (h : P s) : P (s.receiveWord t w) := by
  unfold State.receiveWord
  split
  · exact h
  · dsimp only
    split
    · exact hP.examineSearch (hP.onBringUp h)
    · exact hP.examineConfirm (hP.onBringUp h)
    · exact hP.examineMap (hP.onBringUp h)
    · exact hP.examineSettle (hP.onBringUp h)
    all_goals exact h

theorem linkExpiry {t} (h : P s) : P (s.linkExpiry t) := by
  unfold State.linkExpiry
  split
  · exact hP.testRooms (hP.testFlags (hP.enterUp h))
  · exact h

theorem limitExpiry {t} (h : P s) : P (s.limitExpiry t) := by
  unfold State.limitExpiry
  split
  · exact h
  · exact hP.onBringUp (hP.reportPlain h)

/-! ### Receiver.lean -/

/-- A change of a receiver that leaves its limited counts within their limits. -/
theorem onReceiver {t f} (h : P s)
    (e : (s.trunk t).receiver.errorCount ≤ 255 → (f (s.trunk t).receiver).errorCount ≤ 255)
    (w : (f (s.trunk t).receiver).switchWindow ≤ (s.trunk t).receiver.switchWindow)
    (m : (s.trunk t).receiver.missCount ≤ 1 → (f (s.trunk t).receiver).missCount ≤ 1)
    (r : (s.trunk t).receiver.run ≤ 256 → (f (s.trunk t).receiver).run ≤ 256) : P (s.onReceiver t f) :=
  hP.onTrunk _ _ h fun l =>
    have k := hP.trunk h t l
    ⟨e k.1, w.trans k.2.1, m k.2.2.1, r k.2.2.2⟩

/-- A break event leaves the counts that `P` bounds within their limits. -/
theorem onAtRun {t l b} (h : P s) : P (s.onReceiver t fun r => { r.atRun l with inBreak := b }) := by
  have e : ∀ r : Receiver, (r.atRun l).errorCount = r.errorCount ∧ (r.atRun l).switchWindow = r.switchWindow ∧
      (r.atRun l).missCount = r.missCount ∧ (r.run ≤ 256 → (r.atRun l).run ≤ 256) := by
    intro r
    unfold Receiver.atRun
    split
    · exact ⟨rfl, rfl, rfl, id⟩
    · exact ⟨rfl, rfl, rfl, fun _ => Nat.le_refl _⟩
  have e := e (s.trunk t).receiver
  exact hP.onReceiver h (fun k => by simpa [e.1] using k) (Nat.le_of_eq e.2.1) (fun k => by simpa [e.2.2.1] using k)
    e.2.2.2

theorem breakStart {t} (h : P s) : P (s.breakStart t) := by
  unfold State.breakStart
  split
  · exact h
  · exact hP.handBreakStart (hP.reportPlain (hP.onAtRun h))

theorem breakEnd {t} (h : P s) : P (s.breakEnd t) := by
  unfold State.breakEnd
  have h1 := hP.onAtRun (t := t) (l := .mark) (b := false) h
  split
  · dsimp only
    split
    · exact hP.enterSearch (hP.reportPlain h1)
    · exact hP.reportPlain h1
  · exact h

theorem measurementComplete {t n} (h : P s) : P (s.measurementComplete t n) := by
  unfold State.measurementComplete
  dsimp only
  split
  · split
    · exact hP.onReceiver h id (Nat.le_refl _) id id
    · split
      · exact hP.onReceiver h id (Nat.le_refl _) id id
      · exact hP.reportPlain (hP.onReceiver h id (Nat.le_refl _) id id)
  · exact h

theorem framePair {t b} (h : P s) : P (s.framePair t b) := by
  unfold State.framePair
  dsimp only
  split
  · split
    · exact hP.onReceiver h id (Nat.le_refl _) id id
    · exact h
  · split
    · split
      · exact hP.onReceiver h id (Nat.le_refl _) id id
      · exact hP.onReceiver h id (Nat.le_refl _) (fun _ => Nat.zero_le _) id
    · exact h
    · exact hP.onReceiver h id (Nat.le_refl _) id id
  all_goals exact h

theorem checkSymbol {t sym} (h : P s) : P (s.checkSymbol t sym) := by
  have e : (s.trunk t).receiver.errorCount ≤ 255 → raise255 (s.trunk t).receiver.errorCount ≤ 255 := by
    unfold raise255
    intro
    split <;> omega
  unfold State.checkSymbol
  dsimp only
  split
  · split
    · exact hP.onReceiver h e (Nat.le_refl _) id id
    · exact hP.reportPlain (hP.onReceiver h e (Nat.le_refl _) id id)
  · exact h

theorem setRef {t f} (h : P s) : P (s.setRef t f) := hP.onReceiver h id (Nat.le_refl _) id id

theorem settleFrame {t} (h : P s) : P (s.settleFrame t) := by
  unfold State.settleFrame
  refine hP.onReceiver h ?_ ?_ ?_ ?_ <;> split <;> simp

theorem acceptStart {t f} (h : P s) : P (s.acceptStart t f) :=
  hP.settleFrame (hP.onReceiver h id (Nat.le_refl _) (fun _ => Nat.zero_le _) id)

theorem flowSymbol {t k sym} (h : P s) : P (s.flowSymbol t k sym) := by
  unfold State.flowSymbol
  split
  · exact h
  · split
    · exact hP.sameDesk h (Nat.le_refl _) (Nat.le_refl _) (Nat.le_refl _)
    · split
      · exact hP.sameDesk h (Nat.le_refl _) (Nat.le_refl _) (Nat.le_refl _)
      · exact h

theorem settleStart {t f sym} (h : P s) : P (s.settleStart t f sym) := by
  unfold State.settleStart
  have h1 := fun g => hP.setRef (t := t) (f := g) h
  dsimp only
  split
  · split
    · split
      · exact hP.loseTrunk (h1 _)
      · exact h1 _
    · split
      · exact hP.flowSymbol (h1 _)
      · exact h1 _
  · exact h1 _

theorem missFrame {t f} (h : P s) : P (s.missFrame t f) := by
  unfold State.missFrame
  have h1 : ∀ g : FrameRef, P ((s.onReceiver t fun r => { r with ref := some g, missCount := 1 }).settleFrame t) :=
    fun g => hP.settleFrame (hP.onReceiver h id (Nat.le_refl _) (fun _ => Nat.le_refl _) id)
  dsimp only
  split
  · exact h1 _
  · split
    · exact hP.loseTrunk (h1 _)
    · exact hP.onReceiver (h1 _) id (Nat.le_refl _) (fun _ => Nat.zero_le _) id

theorem trackSymbol {t f r sym} (h : P s) : P (s.trackSymbol t f r sym) := by
  unfold State.trackSymbol
  split
  · exact hP.settleStart h
  · exact hP.acceptStart h
  · exact hP.missFrame h
  · exact hP.flowSymbol (hP.setRef h)
  · exact hP.setRef h
  · exact hP.setRef h

theorem readSymbol {t r sym} (h : P s) : P (s.readSymbol t r sym) := by
  unfold State.readSymbol
  split
  · exact h
  · exact hP.trackSymbol (hP.checkSymbol h)

theorem readAs {t sym m} (h : P s) : P (s.readAs t sym m) := by
  unfold State.readAs
  split
  · exact h
  · split
    · exact hP.readSymbol h
    · exact h

theorem wordReceived {t w} (h : P s) : P (s.wordReceived t w) := by
  unfold State.wordReceived
  split
  · exact hP.receiveWord h
  · exact h

/-! ### Writer.lean: fetch returns -/

theorem fetchError {d} (h : P s) : P (s.fetchError d) := by
  unfold State.fetchError
  split
  · split
    · exact hP.testRooms (hP.testFlag (hP.settleEnded (hP.cutCurrent (hP.reportStory h))))
    · exact h
  · exact h

/-! ### Desks.lean -/

theorem openDesk {d} (h : P s) : P (s.openDesk d) :=
  hP.testFlag (hP.sameDesk h (Nat.le_refl _) (Nat.le_refl _) (Nat.le_refl _))
theorem holdDesk {d} (h : P s) : P (s.holdDesk d) :=
  hP.testFlag (hP.sameDesk h (Nat.le_refl _) (Nat.le_refl _) (Nat.le_refl _))
theorem freeDesk {d} (h : P s) : P (s.freeDesk d) :=
  hP.testFlag (hP.sameDesk h (Nat.le_refl _) (Nat.le_refl _) (Nat.le_refl _))

theorem closeItem {d n b} (h : P s) : P (s.closeItem d n b) := by
  unfold State.closeItem
  dsimp only
  split
  · exact hP.setMark (hP.releaseHolder h)
  · exact hP.releaseHolder h

theorem closeEntry {d e} (h : P s) : P (State.closeEntry d s e) := hP.dropMark (hP.releaseHolder h)

theorem reportClosed {d c n} (h : P s) : P (s.reportClosed d c n) := by
  unfold State.reportClosed
  split
  · exact hP.reportStory h
  · exact hP.report _ h

theorem closeDesk {d} (h : P s) : P (s.closeDesk d) := by
  unfold State.closeDesk
  refine hP.testRooms (foldl (fun _ _ h => hP.settleStory h) _ (hP.reportClosed (hP.sameDesk
    (foldl (fun _ _ h => hP.closeEntry h) _ ?_) (Nat.zero_le _) (Nat.zero_le _) (Nat.le_refl _))))
  split
  · split
    · exact hP.closeItem (hP.closeItem h)
    · exact hP.closeItem h
  · split
    · exact hP.closeItem h
    · exact h

/-! ### DeskSteps.lean -/

theorem breakStep {d} (h : P s) : P (s.breakStep d) := by
  unfold State.breakStep
  split
  · exact hP.testFlag (hP.breakForFlash h)
  · exact h

theorem composeStep {d} (h : P s) : P (s.composeStep d) := by
  unfold State.composeStep
  split
  · exact hP.breakStep h
  · exact hP.testRooms (hP.testFlag (hP.composeOne h))

end Stable

end Sys2Proof.Machine
end

