-- ==== Sys2Proof/Laws/Frames.lean ====
section
/-!
SUPPORT. Three uses of Laws/Stable.lean: the parts of the state that the operations on stories, windows, desks, trunks and
reports leave alone, the limits of desks and trunks, and the limits of the report queue.
-/

namespace Sys2Proof.Machine

open Sys2Proof.Safety

/-- The parts of the state other than stories, windows, desks, trunks, the completion list, the hold and the report
writer. -/
structure Rest where
  mode : Mode
  straps : BitVec 16
  setup : List Host.Cell
  stage : Option Stage
  fifo : List (List Action)
  entries : List QueueEntry
  port : Option PortRequest
  ownWait : Nat
  lastOwn : OwnSource
  downBus : Option BusRequest
  upBus : Option Completion
  fetchPointer : DeskId
  clock : Clock
  freeUse : Nat
  pending : List Instr

/-- Those parts of a state. -/
def State.rest (s : State) : Rest where
  mode := s.mode
  straps := s.straps
  setup := s.setup
  stage := s.stage
  fifo := s.fifo
  entries := s.entries
  port := s.port
  ownWait := s.ownWait
  lastOwn := s.lastOwn
  downBus := s.downBus
  upBus := s.upBus
  fetchPointer := s.fetchPointer
  clock := s.clock
  freeUse := s.freeUse
  pending := s.pending

theorem rest_setLine (s : State) (k : ReportKind) : (s.setLine k).rest = s.rest := by
  unfold State.setLine
  split <;> rfl

theorem rest_report (s : State) (r : Record) : (s.report r).rest = s.rest := by
  unfold State.report
  split
  · rfl
  · exact rest_setLine _ _

/-- The frame of every operation of Laws/Stable.lean. -/
theorem stable_rest (r : Rest) : Stable False (fun s => s.rest = r) where
  desk := fun _ _ l => l.elim
  trunk := fun _ _ l => l.elim
  onStory := fun _ _ h => h
  onWindow := fun _ _ h => h
  completion := fun _ h => h
  clearHold := fun h => h
  onDesk := fun _ _ h _ => h
  onTrunk := fun _ _ h _ => h
  report := fun _ h => (rest_report _ _).trans h

theorem trunks_report (s : State) (r : Record) : (s.report r).trunks = s.trunks := by
  unfold State.report State.setLine
  split
  · rfl
  · split <;> rfl

/-- The limits of desks and trunks are kept by every operation of Laws/Stable.lean. -/
theorem stable_limits : Stable True (fun s => Desks s ∧ Trunks s) where
  desk := fun h d _ => h.1 d
  trunk := fun h t _ => h.2 t
  onStory := fun _ _ h => h
  onWindow := fun _ _ h => h
  completion := fun _ h => h
  clearHold := fun h => h
  onDesk := fun d f h k => by
    refine ⟨fun e => ?_, h.2⟩
    rw [desk_onDesk]
    split
    · exact k trivial
    · exact h.1 e
  onTrunk := fun t f h k => by
    refine ⟨h.1, fun u => ?_⟩
    rw [trunk_onTrunk]
    split
    · exact k trivial
    · exact h.2 u
  report := fun {s} r h =>
    ⟨fun d => (desk_report s r d).symm ▸ h.1 d, fun t => by
      have : (s.report r).trunk t = s.trunk t := by
        unfold State.trunk
        rw [trunks_report]
      rw [this]
      exact h.2 t⟩

theorem reportQueue_setLine {s : State} {k : ReportKind} (h : ReportQueue s) : ReportQueue (s.setLine k) := by
  unfold State.setLine
  split
  · unfold ReportQueue
    rw [writer_onWriter]
    split <;> exact h
  · exact h

/-- The limits of the report queue are kept by every operation of Laws/Stable.lean. -/
theorem stable_reportQueue : Stable False ReportQueue where
  desk := fun _ _ l => l.elim
  trunk := fun _ _ l => l.elim
  onStory := fun _ _ h => h
  onWindow := fun _ _ h => h
  completion := fun _ h => h
  clearHold := fun h => h
  onDesk := fun _ _ h _ => h
  onTrunk := fun _ _ h _ => h
  report := fun {s} r h => by
    unfold State.report
    split
    · rename_i c
      refine ⟨?_, h.2⟩
      show (s.writer.queue ++ [r]).length ≤ 16
      rw [List.length_append]
      exact c.1
    · refine reportQueue_setLine ⟨h.1, ?_⟩
      show raise255 s.writer.missed ≤ 255
      have := h.2
      unfold raise255
      split <;> omega

end Sys2Proof.Machine
end

