-- ==== Sys2Proof/Laws/Kept.lean ====
section
/-!
SUPPORT. What one step can do, said once: a property of states that the store path, the control items, the minute clock and
the idle period keep, and that is `Stable` under the operations on stories, windows, desks, trunks and reports, is kept by
every step. The same for what an action of a control item can do.
-/

namespace Sys2Proof.Machine

open Sys2Proof.Safety

/-! ### Actions of a control item -/

/-- A property that the primitive changes of a control item keep. -/
structure KeptByActs (P : State → Prop) : Prop where
  stable : Stable False P
  setup : ∀ {s : State} cells, P s → P { s with setup := Shadow.overlay s.setup cells }
  writer : ∀ {s : State} f, (∀ w : ReportWriter, (f w).queue = w.queue ∧ (f w).missed = w.missed) → P s → P (s.onWriter f)
  mode : ∀ {s : State} m, P s → P { s with mode := m }
  minute : ∀ {s : State} m, m ≤ 1439 → P s → P (s.setMinute m)
  softReset : ∀ {s : State}, P s → P s.softReset

/-- What a command gives when it passes its checks has a property. -/
def Checked.Gives (P : State → Prop) (x : Checked) : Prop := ∀ t, x = .ok t → P t

theorem gives_ok {P : State → Prop} {t : State} (h : P t) : Checked.Gives P (.ok t) := by
  intro u e
  injection e with e
  exact e ▸ h

theorem gives_error {P : State → Prop} (r : CommandReason) : Checked.Gives P (.error r) := by
  intro t e
  cases e

theorem gives_ite {P : State → Prop} {c : Prop} [Decidable c] {x y : Checked} (hx : c → x.Gives P) (hy : ¬ c → y.Gives P) :
    Checked.Gives P (if c then x else y) := by
  by_cases h : c
  · rw [if_pos h]
    exact hx h
  · rw [if_neg h]
    exact hy h

theorem gives_withDesk {P : State → Prop} {w : CommandWord} {f : DeskId → Checked} (h : ∀ d, (f d).Gives P) :
    Checked.Gives P (withDesk w f) := by
  unfold withDesk
  split
  · exact gives_error _
  · exact h _

theorem gives_withTrunk {P : State → Prop} {w : CommandWord} {f : TrunkId → Checked} (h : ∀ t, (f t).Gives P) :
    Checked.Gives P (withTrunk w f) := by
  unfold withTrunk
  split
  · exact gives_error _
  · exact h _

theorem gives_withWindow {P : State → Prop} {w : CommandWord} {f : WindowId → Checked} (h : ∀ v, (f v).Gives P) :
    Checked.Gives P (withWindow w f) := by
  unfold withWindow
  split
  · exact gives_error _
  · exact h _

theorem gives_withStory {P : State → Prop} {s : State} {w : CommandWord} {f : HandleId → Checked}
    (h : ∀ n, (f n).Gives P) : Checked.Gives P (s.withStory w f) := by
  unfold State.withStory
  split
  · exact gives_error _
  · exact gives_ite (fun _ => h _) fun _ => gives_error _

namespace KeptByActs

variable {P : State → Prop} (k : KeptByActs P) {s : State}
include k

theorem perform (h : P s) (c : CommandKind) (w : CommandWord) : (s.perform c w).Gives P := by
  cases c
  case go => exact gives_ok (k.mode _ h)
  case softReset => exact gives_ok (k.softReset h)
  case release =>
    exact gives_withStory fun n =>
      gives_ite (fun _ => gives_ok (k.stable.testRooms (k.stable.testFlags (k.stable.releaseStory h)))) fun _ =>
        gives_error _
  case kill =>
    exact gives_withStory fun n =>
      gives_ite (fun _ => gives_ok (k.stable.testRooms (k.stable.testFlags (k.stable.hostKill h)))) fun _ => gives_error _
  case openDesk =>
    exact gives_withDesk fun d => gives_ite (fun _ => gives_error _) fun _ => gives_ok (k.stable.openDesk h)
  case closeDesk =>
    exact gives_withDesk fun d => gives_ite (fun _ => gives_ok (k.stable.closeDesk h)) fun _ => gives_error _
  case holdDesk =>
    exact gives_withDesk fun d => gives_ite (fun _ => gives_error _) fun _ => gives_ok (k.stable.holdDesk h)
  case freeDesk =>
    exact gives_withDesk fun d => gives_ite (fun _ => gives_ok (k.stable.freeDesk h)) fun _ => gives_error _
  case trunkUp =>
    exact gives_withTrunk fun t => gives_ite (fun _ => gives_error _) fun _ => gives_ok (k.stable.trunkUp h)
  case trunkDown =>
    exact gives_withTrunk fun t => gives_ite (fun _ => gives_error _) fun _ => gives_ok (k.stable.trunkDown h)
  case clearTrunkErrors => exact gives_withTrunk fun t => gives_ok (k.stable.clearTrunkErrors h)
  case enableWindow =>
    exact gives_withWindow fun v => gives_ite (fun _ => gives_error _) fun _ =>
      gives_ite (fun _ => gives_error _) fun _ => gives_ok (k.stable.enableWindow h)
  case disableWindow =>
    exact gives_withWindow fun v => gives_ite (fun _ => gives_ok (k.stable.disableWindow h)) fun _ => gives_error _
  case clearWindow => exact gives_withWindow fun v => gives_ok (k.stable.clearWindow h)
  case setClock => exact gives_ite (fun c => gives_ok (k.minute _ c h)) fun _ => gives_error _
  case snapshot =>
    exact gives_ite (fun _ => gives_error _) fun _ => gives_ite (fun _ => gives_error _) fun _ =>
      gives_ok (k.writer _ (fun _ => ⟨rfl, rfl⟩) h)
  case clearLine =>
    show Checked.Gives P (s.clearLineCommand w)
    unfold State.clearLineCommand
    split
    · exact gives_ok (k.writer _ (fun _ => ⟨rfl, rfl⟩) h)
    · exact gives_ok (k.writer _ (fun _ => ⟨rfl, rfl⟩) h)
    · exact gives_ok (k.writer _ (fun _ => ⟨rfl, rfl⟩) h)
    · exact gives_error _

theorem command (h : P s) (w : CommandWord) : P (s.command w) := by
  unfold State.command
  split
  · exact k.stable.report _ h
  · split
    · split
      · rename_i e
        exact k.perform h _ w _ e
      · exact k.stable.report _ h
    · exact k.stable.report _ h

theorem commit (h : P s) (e : EntryId) (staged : Bool) (cells : List Host.Cell) : P (s.commit e staged cells) := by
  unfold State.commit
  dsimp only
  split
  · exact k.stable.reportPlain h
  · have h := k.setup cells h
    unfold State.afterCommit
    split
    · split
      · exact k.writer _ (fun _ => ⟨rfl, rfl⟩) h
      · exact h
    · exact k.stable.onWindow _ _ h
    all_goals exact h

theorem act (h : P s) (a : Action) : P (s.act a) := by
  cases a with
  | commit e staged cells => exact k.commit h e staged cells
  | command w => exact k.command h w
  | consumed v =>
    show P (s.setConsumed v)
    unfold State.setConsumed
    split
    · exact k.writer _ (fun _ => ⟨rfl, rfl⟩) h
    · exact k.stable.reportPlain h

theorem acts (h : P s) (l : List Action) : P (l.foldl State.act s) := by
  induction l generalizing s with
  | nil => exact h
  | cons a l ih => exact ih (k.act h a)

theorem carryOut (leave : ∀ {t : State}, P t → P { t with fifo := t.fifo.tail }) (h : P s) (mine : Action → Bool) :
    P (s.carryOut mine) := by
  unfold State.carryOut
  split
  · exact h
  · exact h
  · rename_i a rest _ _
    split
    · have h : P ((a :: rest).foldl State.act s) := k.acts h _
      unfold State.leaveFifo
      dsimp only
      split
      · exact k.stable.clearHold (leave h)
      · exact leave h
    · exact h

end KeptByActs

/-! ### Steps -/

/-- A property that the store path, the items, the clock and the idle period keep, and the other operations leave stable. -/
structure Kept (P : State → Prop) : Prop where
  stable : Stable False P
  hardReset : ∀ {s} straps, P s → P (s.hardReset straps)
  takeUpstream : ∀ {s} r, P s → P (s.takeUpstream r)
  holdExpiry : ∀ {s : State}, P s → P s.holdExpiry
  returnUpstream : ∀ {s : State}, P s → P s.returnUpstream
  complete : ∀ {s : State} st data, P s → P (s.complete st data)
  grantFetch : ∀ {s : State}, P s → P s.grantFetch
  grantRecord : ∀ {s : State}, P s → P s.grantRecord
  grantBlock : ∀ {s : State}, P s → P s.grantBlock
  carryOut : ∀ {s : State} mine, P s → P (s.carryOut mine)
  minuteEdge : ∀ {s : State} e, P s → P (s.minuteEdge e)
  tick : ∀ {s : State}, P s → P s.tick
  pending : ∀ {s : State} l, P s → P { s with pending := l }

namespace Kept

variable {P : State → Prop} (k : Kept P) {s : State}
include k

theorem exec (h : P s) (c : Instr) : ∃ t, Machine.exec c s = .next t ∧ P t := by
  cases c
  case hardReset => exact ⟨_, rfl, k.hardReset _ h⟩
  case takeUpstreamRequest => exact ⟨_, rfl, k.takeUpstream _ h⟩
  case holdTimerExpiry => exact ⟨_, rfl, k.holdExpiry h⟩
  case upstreamCompletionReturn => exact ⟨_, rfl, k.returnUpstream h⟩
  case downstreamCompletion => exact ⟨_, rfl, k.complete _ _ h⟩
  case fetchReadGrant => exact ⟨_, rfl, k.grantFetch h⟩
  case reportWriteGrant => exact ⟨_, rfl, k.grantRecord h⟩
  case snapshotWriteGrant => exact ⟨_, rfl, k.grantBlock h⟩
  case takeNextItem => exact ⟨_, rfl, k.stable.testRooms (k.stable.testFlag (k.stable.takeNext h))⟩
  case composeGroup => exact ⟨_, rfl, k.stable.composeStep h⟩
  case flashBreak => exact ⟨_, rfl, k.stable.breakStep h⟩
  case frameStart => exact ⟨_, rfl, k.stable.frameStart h⟩
  case slotStart => exact ⟨_, rfl, k.stable.slotStart h⟩
  case transmitterEntersMark => exact ⟨_, rfl, k.stable.enterMark h⟩
  case breakStart => exact ⟨_, rfl, k.stable.breakStart h⟩
  case breakEnd => exact ⟨_, rfl, k.stable.breakEnd h⟩
  case measurementComplete => exact ⟨_, rfl, k.stable.measurementComplete h⟩
  case framePairFound => exact ⟨_, rfl, k.stable.framePair h⟩
  case farFrameStart => exact ⟨_, rfl, k.stable.readAs h⟩
  case missingFrame => exact ⟨_, rfl, k.stable.readAs h⟩
  case returnSlotRead => exact ⟨_, rfl, k.stable.readAs h⟩
  case symbolRead => exact ⟨_, rfl, k.stable.readAs h⟩
  case bringUpWordReceived => exact ⟨_, rfl, k.stable.wordReceived h⟩
  case linkTimerExpiry => exact ⟨_, rfl, k.stable.linkExpiry h⟩
  case bringUpLimitExpiry => exact ⟨_, rfl, k.stable.limitExpiry h⟩
  case minuteAdvance => exact ⟨_, rfl, k.minuteEdge _ h⟩
  all_goals exact ⟨_, rfl, k.carryOut _ h⟩

theorem step {t : State} (h : P s) (e : Machine.step s = .next t) : P t := by
  unfold Machine.step at e
  split at e
  · injection e with e
    exact e ▸ k.tick h
  · rename_i c rest _
    obtain ⟨u, e', hu⟩ := k.exec (k.pending rest h) c
    rw [e'] at e
    injection e with e
    exact e ▸ hu

end Kept

end Sys2Proof.Machine
end

