-- ==== Sys2Proof/Tests/Slice0.lean ====
section
/-!
SUPPORT. The model's own tests: the well-formedness checks with an ill-formed term for each, tables and worked examples of
the guide, and for every statement with hypotheses a state and operands that meet them, clause by clause.
-/

namespace Sys2Proof.Tests

-- One theorem at a time: with many `decide` in flight the threads' stacks alone fill the memory limit of the check.
set_option Elab.async false

open Sys2Proof.Machine Sys2Proof.Claims

/-! ### Well-formed commands -/

theorem test_wf_read_of_no_beat : (Instr.takeUpstreamRequest (.read 0x40 0)).wellFormed = false := by decide
theorem test_wf_read_off_the_boundary : (Instr.takeUpstreamRequest (.read 0x41 1)).wellFormed = false := by decide
theorem test_wf_write_of_no_beat : (Instr.takeUpstreamRequest (.write 0x40 [])).wellFormed = false := by decide
theorem test_wf_write_off_the_boundary :
    (Instr.takeUpstreamRequest (.write 0x44 [⟨0, 0xFF⟩])).wellFormed = false := by decide
theorem test_wf_completion_of_five_beats : (Instr.downstreamCompletion .ok [0, 0, 0, 0, 0]).wellFormed = false := by decide
theorem test_wf_estimate_too_small : (Instr.measurementComplete 0 1).wellFormed = false := by decide
theorem test_wf_estimate_too_large : (Instr.measurementComplete 0 256).wellFormed = false := by decide
theorem test_wf_limits :
    (Instr.takeUpstreamRequest (.read 0x40 5)).wellFormed = true ∧
      (Instr.downstreamCompletion .ok [0, 0, 0, 0]).wellFormed = true ∧ (Instr.measurementComplete 0 2).wellFormed = true ∧
      (Instr.measurementComplete 0 255).wellFormed = true := by decide

/-! ### Tables and worked examples -/

/-- LTRS, FIGS, CR, LF, SPACE and BELL on the line (section 8.2). -/
theorem test_shift_codes_on_the_line :
    [31, 27, 8, 2, 4, 11].map codePattern =
      [0b1110001, 0b1100110, 0b0101110, 0b0011011, 0b0011110, 0b0110110] := by decide

theorem test_words_have_their_kinds :
    wordKind (makeWord 1 true true 0x3480) = .base ∧ wordKind (makeWord 2 true false 0x1180) = .page ∧
      wordKind (makeWord 0 true false 0) = .null ∧ wordKind (makeWord 3 true false 0) = .ignored ∧
      wordKind (makeWord 1 true true 0x3481) = .ignored := by decide

theorem test_lead_of_seven_fields :
    checkLead [0x30, 0x34, 0x31, 0x32, 0x1F, 0x42, 0x1F, 0x33, 0x2C, 0x30, 0x37, 0x1F, 0x41, 0x1F, 0x4E, 0x1F, 0x1F] =
      .ok { serial := 412, cls := .bulletin, selector := .desks [2, 6], slug := [0x41], mode := .new, reference := none,
            embargo := none } := by decide +kernel

theorem test_lead_class_in_lower_case : checkLead [0x31, 0x1F, 0x66, 0x1F, 0x30, 0x1F, 0x1F, 0x4E, 0x1F, 0x1F] =
    .error .badClass := by decide +kernel

/-- The FIFO word of E00h and the entry words of Table 2-1. -/
theorem test_page_words :
    pageWord 0xE00 = .command ∧ pageWord 0xE08 = .consumed ∧ pageWord 0x118 = .entryWord (.trunk 2) 3 ∧
      pageWord 0x180 = .entryWord (.desk 4) 0 ∧ pageWord 0x028 = .noItem ∧ pageWord 0x5FF = .noItem ∧
      pageWord 0xF00 = .noItem ∧ pageWord 0x9F8 = .entryWord (.codeWord 3 31) 0 := by decide +kernel

/-- Section 2.8: a desk word restarts the stage, so the trunk's commit word finds its entry unstaged. -/
theorem test_staging_restarts :
    (copyWord (copyWord (copyWord ⟨none, []⟩ 0x100 ⟨0x0C0703, 0xFF⟩) 0x180 ⟨0, 0xFF⟩) 0x118 ⟨0, 0xFF⟩).actions.map
      (fun a => match a with
        | .commit e staged _ => some (e, staged)
        | _ => none) = [some (.trunk 2, false)] := by decide +kernel

theorem test_ring_full_by_one :
    (State.onWriter { State.reset with setup := [(4, 1)] } fun w => { w with writeIndex := 15 }).ringFull = true := by
  decide +kernel

theorem test_lines_after_reset : State.reset.alertPin = .low ∧ State.reset.noticePin = .low := by decide +kernel

/-! ### States for the witnesses -/

/-- RUN, with the control page at 1000h. -/
def inRun : State := { State.reset with mode := .run, straps := 1 }

/-- An item of one action at the head of the control FIFO. -/
def withItem (s : State) (a : Action) : State := { s with fifo := [[a]] }

/-- A command word. -/
def word (code target : Byte) (handle : Byte := 0) (value : BitVec 32 := 0) : CommandWord :=
  { code := code, target := target, handle := handle, generation := 0, value := value }

/-- RUN with a command waiting. -/
def ordered (w : CommandWord) : State := withItem inRun (.command w)

/-- Window 0, 0000h to 0FFFh, ENABLED with the intake position at 100h. -/
def windowOn : State := inRun.onWindow 0 fun k => { k with setUp := true, enabled := true, intake := 0x100 }

/-- Window 0 with a LIVE story from 40h: its span is 40h to FFh. -/
def windowHolds : State :=
  (windowOn.onWindow 0 fun k => { k with stories := [0] }).onStory 0 fun r => { r with state := .live, origin := 0x40 }

/-- A write of one enabled byte, at the start of a beat. -/
def oneByte (b : Byte) : List Beat := [⟨b.setWidth 64, 1⟩]

/-- A queue entry that waits. -/
def waitingFor (o : Owner) (a : Access) : QueueEntry := { owner := o, access := a, isLocal := false, result := none }

/-- A send context of story 0. -/
def sending (segment : Segment) (layout : List Group) : SendContext :=
  { handle := 0, kind := .story, segment := segment, layout := layout, openingDone := true, cursor := 0, lineStart := 0
    columnLimit := 69, feedLines := 0, underrunLatch := false }

/-- Desk 1 OPEN, sending story 0. -/
def deskSends (segment : Segment) (layout : List Group) : State :=
  inRun.onDesk 0 fun k => { k with isOpen := true, context := some (sending segment layout) }

/-- Desk 1 in the text of story 0, of two bytes at FEh. -/
def inText : State :=
  (deskSends .text []).onStory 0 fun r => { r with state := .live, textCount := 2, extents := [⟨0xFE, 2⟩] }

/-- A report ring of 16 records at 2000h. -/
def ringSetup : List Host.Cell := [(1, 0x20), (4, 1)]

/-- A record. -/
def aRecord : Record :=
  { kind := .softResetDone, subject := 0xFF, handle := 0xFF, generation := 0, serial := 0, minute := 0, detail := [] }

/-- Trunk 0 of one slot, for desk 1. -/
def oneSlot : List Host.Cell := [(0xC0, 1), (0xD0, 1)]

/-- Trunk 0 with a bring-up state, a receiver and a transmitter. -/
def trunkIn (b : BringUp) (r : Receiver) (f : Option Framing) : State :=
  ({ inRun with setup := oneSlot } : State).onTrunk 0 fun _ => { transmitter := f, receiver := r, bringUp := b }

/-- A data frame at its FRAME symbol. -/
def dataFrame : Framing :=
  { kind := .data, symbol := 1, unit := 7, pattern := 0b1110010, rate := 0, timer := 0, stopping := false }

/-- A frame reference at an offset. -/
def refAt (kind : RefKind) (offset : Nat) : FrameRef :=
  { kind := kind, offset := offset, accepted := true, slotsRead := decide (kind = .data), afterBringUp := false, values := []
    withheld := false }

/-! ### Witnesses: the machine and the store path -/

theorem witness_StepCarriesOutFront : ({ inRun with pending := [.go] } : State).pending = .go :: [] := rfl

/-- Nothing due; and a trunk in SETTLE at the last period of both its timers, whose limit comes first. -/
theorem witness_IdleStepIsOnePeriod :
    State.reset.pending = [] ∧
      ∃ s : State, s.pending = [] ∧ timersDue s 0 = [.bringUpLimitExpiry 0, .linkTimerExpiry 0] :=
  ⟨rfl,
    ⟨{ trunkIn { state := .settle, linkTimer := some 479999, limitTimer := some 47999999 } { } none with
        setup := [(0xC0, 1), (0xD0, 1), (0xD4, 1)] }, rfl, by decide +kernel⟩⟩

theorem witness_TakeReadForwards :
    InForm 0x20 4 ∧ TakenNow { inRun with ownWait := 7 } (.read 0x20 4) ∧ InForm 0x38 1 ∧ TakenNow inText (.read 0x38 1) := by
  unfold InForm TakenNow
  decide +kernel

theorem witness_TakeMalformedRefuses :
    ¬ InForm 0x28 4 ∧ TakenNow inRun (.read 0x28 4) ∧ ¬ InForm 0x20 (List.replicate 5 (⟨0, 1⟩ : Beat)).length ∧
      TakenNow inRun (.write 0x20 (List.replicate 5 ⟨0, 1⟩)) := by
  unfold InForm TakenNow
  decide +kernel

/-- The last byte of the span, first with the latch clear and then with it set. -/
theorem witness_TakeProtectedAbsorbs :
    (InForm 0xF8 1 ∧ TakenNow windowHolds (.write 0xF8 [⟨0, 0x80⟩]) ∧ enabledBytes 0xF8 [⟨0, 0x80⟩] = (0xFF, 0) :: [] ∧
      windowHolds.touchedWindow [(0xFF, 0)] = some 0 ∧ (windowHolds.window 0).protect = none) ∧
    ((windowHolds.onWindow 0 fun k => { k with protect := some 0x40 }).touchedWindow [(0xFF, 0)] = some 0 ∧
      TakenNow (windowHolds.onWindow 0 fun k => { k with protect := some 0x40 }) (.write 0xF8 [⟨0, 0x80⟩]) ∧
      ((windowHolds.onWindow 0 fun k => { k with protect := some 0x40 }).window 0).protect.isSome) := by
  unfold InForm TakenNow
  decide +kernel

/-- No byte enabled; and a byte just past the control page. -/
theorem witness_TakePlainWriteForwards :
    InForm 0x40 1 ∧ TakenNow windowHolds (.write 0x40 [⟨0, 0⟩]) ∧ enabledBytes 0x40 [⟨0, 0⟩] = [] ∧
      InForm 0x2000 1 ∧ TakenNow windowHolds (.write 0x2000 (oneByte 1)) ∧
      windowHolds.touchedWindow (enabledBytes 0x2000 (oneByte 1)) = none ∧ windowHolds.inPage 0x2000 = false ∧
      windowHolds.enabledWindow 0x2000 = none := by
  unfold InForm TakenNow
  decide +kernel

/-- No item; an item with one place left; an item with the FIFO full. -/
theorem witness_TakePageWrite :
    (InForm 0x1E00 1 ∧ TakenNow inRun (.write 0x1520 (oneByte 1)) ∧ enabledBytes 0x1520 (oneByte 1) ≠ [] ∧
      inRun.touchedWindow (enabledBytes 0x1520 (oneByte 1)) = none ∧ inRun.inPage 0x1520 = true ∧
      (inRun.copyOf 0x1520 (oneByte 1)).actions = []) ∧
    ∀ n ∈ [3, 4], TakenNow { inRun with fifo := List.replicate n [] } (.write 0x1E00 (oneByte 1)) ∧
      enabledBytes 0x1E00 (oneByte 1) ≠ [] ∧ inRun.touchedWindow (enabledBytes 0x1E00 (oneByte 1)) = none ∧
      inRun.inPage 0x1E00 = true ∧
      (({ inRun with fifo := List.replicate n [] } : State).copyOf 0x1E00 (oneByte 1)).actions ≠ [] := by
  unfold InForm TakenNow
  decide +kernel

/-- A word of one entry, an earlier and the last word of a trunk's, a word of none, the command word and the consumed index,
each on a word boundary; the last word with the earlier ones staged; and a write of two words in form. -/
theorem witness_TakePageWrite_copy :
    (∀ x ∈ [(EntryId.convWord 31, 0), (.general 4, 0), (.trunk 2, 0), (.trunk 2, 3), (.desk 23, 1)],
      x.2 < (entryPlace x.1).2 ∧ ((entryPlace x.1).1 + 8 * x.2) % 8 = 0) ∧
    ((entryPlace (.convWord 31)).2 = 1 ∧ 0 + 1 < (entryPlace (.trunk 2)).2 ∧ 3 + 1 = (entryPlace (.trunk 2)).2) ∧
    allStaged (some ⟨.trunk 2, [(0x100, 1), (0x108, 1), (0x117, 1)]⟩) (.trunk 2) ∧
    (¬ allStaged none (.trunk 2) ∧ ∀ x ∈ [0x28, 0xE10, 0xE00, 0xE08], ∀ w < 5, x ≠ 8 * w) ∧
    InForm 0x1E00 [(⟨1, 0xFF⟩ : Beat), ⟨1, 3⟩].length := by
  refine ⟨by decide +kernel, by decide +kernel, ⟨_, rfl, rfl, fun i h => ?_⟩, ⟨?_, by decide +kernel⟩, ?_⟩
  · exact (by decide +kernel : ∀ i < 3, ∃ c ∈ [((0x100 : Nat), (1 : Byte)), (0x108, 1), (0x117, 1)],
      (c.1 - (entryPlace (.trunk 2)).1) / 8 = i) i (Nat.lt_of_succ_lt_succ h)
  · intro h
    obtain ⟨g, h, _⟩ := h
    cases h
  · unfold InForm
    decide +kernel

theorem witness_TakeIgnoredWindowWrite :
    InForm 0x100 1 ∧ TakenNow windowOn (.write 0x100 (oneByte 7)) ∧ enabledBytes 0x100 (oneByte 7) ≠ [] ∧
      windowOn.touchedWindow (enabledBytes 0x100 (oneByte 7)) = none ∧ windowOn.inPage 0x100 = false ∧
      windowOn.enabledWindow 0x100 = some 0 ∧ (windowOn.window 0).stories = [] ∧ (windowOn.window 0).parse = .hunt ∧
      windowOn.inSequence 0 (enabledBytes 0x100 ((oneByte 7).map (windowOn.translateBeat 0))) = true ∧
      ∀ b ∈ enabledBytes 0x100 ((oneByte 7).map (windowOn.translateBeat 0)), b.2 ≠ 0x01 := by
  have e : enabledBytes 0x100 ((oneByte 7).map (windowOn.translateBeat 0)) = [(0x100, 0)] := by decide +kernel
  rw [e]
  unfold InForm TakenNow
  refine ⟨by decide +kernel, by decide +kernel, by decide +kernel, by decide +kernel, by decide +kernel, by decide +kernel,
    by decide +kernel, by decide +kernel, by decide +kernel, fun b hb => ?_⟩
  rw [List.mem_singleton.1 hb]
  decide

/-- A hold; eight entries; an own request that has waited long enough. -/
theorem witness_RequestWaitsForGrant :
    ({ inRun with hold := some ⟨.fifoFull, 64, 0⟩ } : State).hold.isSome ∧
      8 ≤ ({ inRun with entries := List.replicate 8 (waitingFor .upstream .read) } : State).upstreamEntries ∧
      ({ inText with ownWait := 8 } : State).yieldCount ≤ ({ inText with ownWait := 8 } : State).ownWait ∧
      ({ inText with ownWait := 8 } : State).ownReady = true ∧ inText.port = none := by
  decide +kernel

/-- A request that stands, not granted in a hold. -/
theorem witness_RequestWaitsForGrant_standing :
    ∃ s : State, s.hold.isSome ∧ s.port = some ⟨.read 0x100 1, true⟩ :=
  ⟨{ inRun with port := some ⟨.read 0x100 1, true⟩, hold := some ⟨.fifoFull, 64, 0⟩ }, rfl, rfl⟩

/-- A write to E00h in a FIFO_FULL hold. -/
def heldFor (beats : List Beat) : State :=
  { inRun with hold := some ⟨.fifoFull, 64, 0⟩, port := some ⟨.write 0x1E00 beats, false⟩ }

/-- No hold; a write whose first beat enables no byte, and one that enables byte 0 of E00h; and a write whose hold has
expired. -/
theorem witness_HoldExpiryFifoFull :
    State.reset.hold = none ∧ (heldFor []).hold = some ⟨.fifoFull, 64, 0⟩ ∧
      (∀ blank ∈ [[], [(⟨0x55, 0⟩ : Beat)]],
        (heldFor (blank ++ ⟨0x55, 0xFF⟩ :: [])).port = some ⟨.write 0x1E00 (blank ++ ⟨0x55, 0xFF⟩ :: []), false⟩ ∧
        InForm 0x1E00 (blank.length + 1) ∧
        (∀ y ∈ blank, y.enables = 0) ∧ (0xFF : BitVec 8) ≠ 0) ∧
      (enabledBytes 0x1E00 [⟨0x55, 1⟩] = [(0x1E00, 0x55)] ∧ (0x1E00 : Addr).toNat = 4096 * 1 + 0xE00 ∧
        enabledBytes 0x1E00 [⟨0x55, 0⟩, ⟨0x55, 1⟩] = [(0x1E08, 0x55)] ∧ (0x1E08 : Addr).toNat ≠ 4096 * 1 + 0xE00) ∧
      ∃ s : State, s.port = some ⟨.write 0x1E00 (oneByte 1), true⟩ ∧ s.hold = none ∧ s.upstreamEntries < 8 ∧
        s.ownWait < s.yieldCount :=
  ⟨rfl, rfl, by unfold InForm; decide +kernel, by decide +kernel,
    ⟨{ inRun with port := some ⟨.write 0x1E00 (oneByte 1), true⟩ }, rfl, rfl, by decide, by decide⟩⟩

/-- Each cause, in a window whose story is LIVE, and in one whose story is OPEN. -/
theorem witness_HoldExpiryAbsorbs :
    ∀ cause ∈ [HoldCause.ringFull 0, .tableFull 0 0x100],
      (∃ s : State, ∃ p, s.hold = some ⟨cause, 64, 0⟩ ∧ s.port = some p ∧ s.openStory 0 = none) ∧
        ∃ s : State, ∃ p, s.hold = some ⟨cause, 64, 0⟩ ∧ s.port = some p ∧ s.openStory 0 = some 0 ∧
          (s.story 0).window = 0 := fun cause _ =>
  ⟨⟨{ windowHolds with hold := some ⟨cause, 64, 0⟩, port := some ⟨.write 0x100 (oneByte 1), false⟩ }, _, rfl, rfl,
      (by decide +kernel : windowHolds.openStory 0 = none)⟩,
    ⟨{ windowHolds.onStory 0 fun r => { r with state := .opened } with
        hold := some ⟨cause, 64, 0⟩, port := some ⟨.write 0x100 (oneByte 1), false⟩ }, _, rfl, rfl,
      (by decide +kernel : (windowHolds.onStory 0 fun r => { r with state := .opened }).openStory 0 = some 0), rfl⟩⟩

theorem witness_UpstreamReturnsInOrder :
    (∃ (older newer : List QueueEntry) (e : QueueEntry) (c : Completion),
      (∀ x ∈ older, x.owner ≠ .upstream) ∧ e.owner = .upstream ∧ e.result = some c ∧ older ≠ [] ∧ newer ≠ []) ∧
    (∃ (older newer : List QueueEntry) (e : QueueEntry),
      (∀ x ∈ older, x.owner ≠ .upstream) ∧ e.owner = .upstream ∧ e.result = none ∧ older ≠ [] ∧ newer ≠ []) ∧
    ∀ x ∈ ({ inRun with entries := [waitingFor .report .write] } : State).entries, x.owner ≠ .upstream :=
  ⟨⟨[waitingFor .report .write], [waitingFor .upstream .read], { waitingFor .upstream .read with result := some ⟨.ok, [0]⟩ },
      ⟨.ok, [0]⟩, by decide, rfl, rfl, by decide, by decide⟩,
    ⟨[waitingFor .report .write], [waitingFor .upstream .read], waitingFor .upstream .read, by decide, rfl, rfl, by decide,
      by decide⟩, by decide⟩

/-- An older entry that is COMPLETE and one that is LOCAL stand before the one that is matched. -/
def settledOnes : List QueueEntry :=
  [{ waitingFor .upstream .read with result := some ⟨.ok, [0]⟩ },
   { waitingFor .upstream .write with isLocal := true, result := some ⟨.ok, []⟩ }]

theorem witness_CompletionMatchesOldestWaiting :
    (∀ x ∈ settledOnes, x.result.isSome ∨ x.isLocal = true) ∧ (waitingFor .upstream .read).result = none ∧
      (waitingFor .upstream .read).isLocal = false ∧ (waitingFor .upstream .read).owner = .upstream := by decide

/-- Desk 1 with both blocks REQUESTED and its read the oldest that waits: discarded at another epoch, filled on OK, cut on
ERROR. Phrase 9 is one letter, so that the TEXT LOST notice begins; in the states without setup it is left out. -/
theorem witness_TextReadReturns :
    ∃ s : State, s.entries = settledOnes ++ waitingFor (.fetch 0 (s.desk 0).epoch) .read :: [] ∧
      (∀ x ∈ settledOnes, x.result.isSome ∨ x.isLocal = true) ∧ (s.desk 0).epoch ≠ 255 ∧
      OlderRequested (s.desk 0) false ⟨0xE0, 0, 1⟩ ∧ (s.desk 0).context = some (sending .text []) ∧ s.phrase 9 ≠ [] :=
  ⟨{ inText.onDesk 0 fun k => { k with staging0 := .requested ⟨0xE0, 0, 1⟩, staging1 := .requested ⟨0x100, 2, 33⟩ } with
      entries := settledOnes ++ [waitingFor (.fetch 0 0) .read], setup := [(0x4E0, 1), (0x4E1, 0x41)] },
    by decide +kernel, by decide, by decide +kernel,
    ⟨by decide +kernel, fun _ e => by cases e; exact Nat.zero_le _⟩, by decide +kernel, by decide +kernel⟩

/-- Block 1 is the older of two, and the only one; and the TEXT LOST notice left out. -/
theorem witness_TextReadReturns_second :
    (∀ x ∈ [Staging.requested ⟨0x100, 2, 33⟩, .empty], OlderRequested
      ((inText.onDesk 0 fun k => { k with staging0 := x, staging1 := .requested ⟨0xE0, 0, 1⟩ }).desk 0) true ⟨0xE0, 0, 1⟩) ∧
      LeftOut inText .textLost := by
  refine ⟨fun x hx => ?_, by decide +kernel, fun e => by cases e⟩
  rcases List.mem_cons.mp hx with rfl | hx
  · exact ⟨by decide +kernel, fun _ e => by cases e; decide⟩
  · rw [List.mem_singleton.mp hx]
    exact ⟨by decide +kernel, fun _ e => by cases e⟩

/-- A return of the present epoch at desk 1, whose blocks are EMPTY. -/
theorem witness_TextReadReturns_noBlock :
    ∃ s : State, s.entries = settledOnes ++ waitingFor (.fetch 0 (s.desk 0).epoch) .read :: [] ∧
      (∀ b, (s.desk 0).staging0 ≠ .requested b) ∧ ∀ b, (s.desk 0).staging1 ≠ .requested b :=
  ⟨{ inText with entries := settledOnes ++ [waitingFor (.fetch 0 0) .read] }, by decide +kernel,
    fun b => show Staging.empty ≠ .requested b from nofun, fun b => show Staging.empty ≠ .requested b from nofun⟩

theorem witness_ReportWriteCompletes :
    ∀ abandoned ∈ [true, false], ∃ s : State, s.entries = [] ++ waitingFor .report .write :: [] ∧
      s.writer.outstanding = some ⟨.record .storyIn, abandoned⟩ := fun abandoned _ =>
  ⟨{ inRun with
      entries := [waitingFor .report .write]
      writer := { outstanding := some ⟨.record .storyIn, abandoned⟩ } }, rfl, rfl⟩

theorem witness_SnapshotWriteCompletes :
    ∀ issued ∈ [7, 8], ∃ s : State, s.entries = [] ++ waitingFor .snapshot .write :: [] ∧
      s.writer.outstanding = some ⟨.block, false⟩ ∧ s.writer.snapshot = some ⟨0, [], issued⟩ := fun issued _ =>
  ⟨{ inRun with
      entries := [waitingFor .snapshot .write]
      writer := { outstanding := some ⟨.block, false⟩, snapshot := some ⟨0, [], issued⟩ } }, rfl, rfl, rfl⟩

/-- Desk 1 alone is in its text, of two bytes at FEh, and the pointer is at desk 24; and a ring with a record to write. -/
theorem witness_FetchReadAndReportWriteGranted :
    (inText.grantsFetch = true ∧ ServedNext inText 0 ⟨0xE0, 0, 1⟩) ∧
      ∃ s : State, s.grantsWriter = true ∧ s.offersRecord = true ∧ s.writer.queue = aRecord :: [] :=
  ⟨⟨by decide +kernel,
    ⟨sending .text [], by decide +kernel, rfl, by decide +kernel, by decide +kernel, [], ⟨0xFE, 2⟩, [], by decide +kernel,
      0, 0xFE, by decide +kernel⟩,
    0, by decide, by decide +kernel, fun j h => absurd h (Nat.not_lt_zero j)⟩,
    ⟨{ inRun with setup := ringSetup, writer := { queue := [aRecord] } }, by decide +kernel, by decide +kernel, rfl⟩⟩

theorem witness_SnapshotWriteGranted :
    ∃ s : State, s.grantsWriter = true ∧ s.writer.outstanding = none ∧ s.writer.snapshot = some ⟨0, [], 7⟩ :=
  ⟨{ inRun with writer := { snapshot := some ⟨0, [], 7⟩ } }, by decide +kernel, rfl, rfl⟩

/-! ### Witnesses: the control unit -/

/-- A commit that fails, of word 0, of a window, and of another entry. -/
theorem witness_CommitTakesEffectOrIsRefused :
    (∃ s : State, Head s (.commit (.general 4) true [(0x20, 4)]) [] ∧
      s.commitFault (.general 4) true (Shadow.overlay s.setup [(0x20, 4)]) = some .outOfRange) ∧
    ∀ x ∈ [(EntryId.general 0, [(1, 0x20), (4, 1)]), (.window 0, [(0x41, 0x30)]), (.general 4, [(0x20, (3 : Byte))])],
      ∃ s : State, Head s (.commit x.1 true x.2) [] ∧
        s.commitFault x.1 true (Shadow.overlay s.setup x.2) = none := by
  refine ⟨⟨withItem inRun _, rfl, by decide +kernel⟩, fun x hx => ⟨withItem { inRun with mode := .configure } _, rfl, ?_⟩⟩
  revert x
  decide +kernel

/-- Each locked entry of Table 2-9, in RUN. -/
theorem witness_CommitLocksAndLegalValues :
    LockedInRun inRun (.general 0) ∧ LockedInRun inRun (.general 2) ∧ LockedInRun inRun (.general 3) ∧
      LockedInRun windowOn (.window 0) ∧ LockedInRun (windowHolds.onWindow 0 fun k => { k with enabled := false }) (.window 0) ∧
      LockedInRun (trunkIn { state := .search } { } none) (.trunk 0) ∧ LockedInRun inText (.desk 0) ∧
      ¬ LockedInRun inRun (.general 1) ∧ ¬ LockedInRun inRun (.window 0) ∧ State.reset.mode = .configure := by
  unfold LockedInRun
  decide +kernel

/-- A trunk of one slot passes; its rate class is out of range; its desk is mapped twice, within the trunk and in another one;
and a desk of a column limit just below its range. -/
theorem test_commit_reasons :
    State.reset.commitFault (.trunk 0) true oneSlot = none ∧
      State.reset.commitFault (.trunk 0) true ((0xD1, 4) :: oneSlot) = some .outOfRange ∧
      State.reset.commitFault (.trunk 0) true [(0xC0, 1), (0xC1, 1), (0xD0, 2)] = some .duplicateDesk ∧
      State.reset.commitFault (.trunk 0) true (oneSlot ++ [(0xE0, 1), (0xF0, 1)]) = some .duplicateDesk ∧
      State.reset.commitFault (.desk 0) true [(0x148, 19)] = some .outOfRange := by
  decide +kernel

/-- Window and ring fields at the ends of their ranges, and just past them; a window that ends where the control page begins,
and one that shares its first address. -/
theorem witness_CommittedRangesDoNotMeet :
    State.reset.mode = .configure ∧
      (∀ x ∈ [[(0x43, 0x0F), (0x42, (0xFF : Byte)), (0x41, 0xF0), (0x48, 0), (0x49, 15), (0x4A, 255), (0x4B, 7)],
          [(0x42, 0x10), (0x48, 8), (0x49, 0), (0x4A, 3)]],
        State.reset.commitFault (.window 0) true x = none) ∧
      (∀ x ∈ [[(0x43, 0x10)], [(0x42, 0x10), (0x48, 9)], [(0x42, 0x10), (0x49, 16)], [(0x42, 0x10), (0x4A, (4 : Byte))],
          [(0x42, 0x10), (0x4A, 254)], [(0x42, 0x10), (0x4B, 8)], []],
        State.reset.commitFault (.window 0) true x ≠ none) ∧
      ({ State.reset with straps := 2 } : State).commitFault (.window 0) true [(0x41, 0x10)] = none ∧
      ({ State.reset with straps := 1 } : State).commitFault (.window 0) true [(0x41, 0x10)] ≠ none ∧
      (∀ x ∈ [[(4, (0 : Byte))], [(1, 0x40), (4, 7)], [(3, 0x0F), (2, 0xFF), (1, 0xFF), (4, 1)]],
        State.reset.commitFault (.general 0) true x = none) ∧
      ∀ x ∈ [[(1, (0x80 : Byte)), (4, 8)], [(3, 0x10)], [(1, 0x20), (4, 7)], [(0, 0x80), (1, 0x10), (4, 1)]],
        State.reset.commitFault (.general 0) true x ≠ none := by
  decide +kernel

/-- A window that is at fault in every way is out of range; one that is not aligned and overlaps, not aligned; and one that only
overlaps. The same of the ring. -/
theorem test_commit_order :
    State.reset.commitFault (.window 0) true [(0x40, 1), (0x48, 9)] = some .outOfRange ∧
      State.reset.commitFault (.window 0) true [(0x40, 1)] = some .alignment ∧
      State.reset.commitFault (.window 0) true [] = some .overlap ∧
      State.reset.commitFault (.general 0) true [(0, 1), (4, 8)] = some .outOfRange ∧
      State.reset.commitFault (.general 0) true [(0, 1), (4, 1)] = some .alignment ∧
      State.reset.commitFault (.general 0) true [(4, 1)] = some .overlap := by
  decide +kernel

/-- Index 3 when 0 to 3 are written, and 4, just past the write index; and no ring. -/
theorem witness_ConsumedIndexWithinWritten :
    ∃ s : State, Head s (.consumed 3) [] ∧ s.ringCode ≠ 0 ∧ 3 < s.ringSize ∧
      forward s.ringSize s.writer.consumed 3 ≤ forward s.ringSize s.writer.consumed s.writer.writeIndex ∧
      forward s.ringSize s.writer.consumed s.writer.writeIndex < forward s.ringSize s.writer.consumed 4 ∧
      (ordered (word 0 0)).ringCode = 0 :=
  ⟨{ withItem inRun (.consumed 3) with setup := ringSetup, writer := { writeIndex := 3 } }, rfl, by decide +kernel,
    by decide +kernel, by decide +kernel, by decide +kernel, by decide +kernel⟩

theorem witness_GoSetsRun :
    (∃ s : State, Head s (.command (word 0x01 0)) [] ∧ s.mode = .configure) ∧
      ∃ s : State, Head s (.command (word 0x01 0)) [] ∧ s.mode = .run :=
  ⟨⟨withItem State.reset (.command (word 0x01 0)), rfl, rfl⟩, ⟨ordered (word 0x01 0), rfl, rfl⟩⟩

theorem witness_SoftResetClearsThePart : Head (ordered (word 0x02 0)) (.command (word 0x02 0)) [] := rfl

/-- A code of no command; GO in RUN; and for each command out of range the value just past its range. -/
theorem witness_CommandRefusedByFirstCheck :
    (∀ k, (word 0x03 0).code ≠ codeOf k) ∧ (word 0x01 0).code = codeOf .go ∧ accepted .go (ordered (word 0x01 0)).mode = false ∧
      Head (ordered (word 0x20 25)) (.command (word 0x20 25)) [] ∧ accepted .openDesk (ordered (word 0x20 25)).mode = true ∧
      ¬ InRange (ordered (word 0x20 25)) (word 0x20 25) .openDesk ∧ ¬ InRange inRun (word 0x20 0) .openDesk ∧
      ¬ InRange inRun (word 0x10 0 128) .release ∧ ¬ InRange inRun (word 0x30 4) .trunkUp ∧
      ¬ InRange inRun (word 0x42 8) .clearWindow ∧ ¬ InRange inRun (word 0x40 0 0 4096) .enableWindow ∧
      ¬ InRange inRun (word 0x50 0 0 1440) .setClock ∧ ¬ InRange inRun (word 0x51 11) .snapshot ∧
      ¬ InRange inRun (word 0x52 0) .clearLine ∧ ¬ InRange inRun (word 0x52 4) .clearLine := by
  refine ⟨by intro k; cases k <;> decide, rfl, rfl, rfl, rfl, ?_⟩
  unfold InRange
  decide +kernel

/-! ### Witnesses: commands on stories, desks, trunks and windows -/

/-- Story 0 in a state, with a command on it waiting. -/
def storyOrdered (st : StoryState) (w : CommandWord) : State :=
  (ordered w).onStory 0 fun r => { r with state := st, generation := 1 }

theorem witness_ReleaseOfHeldStory :
    (∀ x ∈ [((0 : Byte), StoryState.held), (1, .live), (1, .held)], ∃ s : State, ∃ w,
      Head s (.command w) [] ∧ w.code = 0x10 ∧ s.mode = .run ∧ w.handle.toNat = (0 : HandleId).val ∧
        (s.story 0).state = x.2 ∧ w.generation = x.1 ∧ (s.story 0).generation = 1) := fun x _ =>
  ⟨storyOrdered x.2 { word 0x10 0 with generation := x.1 }, _, rfl, rfl, rfl, rfl, by
    simp [storyOrdered, State.story, State.onStory, getElem_modifyAt, -Fin.getElem_fin], rfl, by
    simp [storyOrdered, State.story, State.onStory, getElem_modifyAt, -Fin.getElem_fin]⟩

theorem witness_KillRetiresStory :
    (∀ x ∈ [((0 : Byte), StoryState.held), (1, .opened), (1, .held), (1, .live), (1, .spent)], ∃ s : State, ∃ w,
      Head s (.command w) [] ∧ w.code = 0x11 ∧ s.mode = .run ∧ w.handle.toNat = (0 : HandleId).val ∧
        (s.story 0).state = x.2 ∧ w.generation = x.1 ∧ (s.story 0).generation = 1 ∧ (s.story 0).holders = 0) := fun x _ =>
  ⟨storyOrdered x.2 { word 0x11 0 with generation := x.1 }, _, rfl, rfl, rfl, rfl, by
    simp [storyOrdered, State.story, State.onStory, getElem_modifyAt, -Fin.getElem_fin], rfl, by
    simp [storyOrdered, State.story, State.onStory, getElem_modifyAt, -Fin.getElem_fin], by
    simp [storyOrdered, State.story, State.onStory, getElem_modifyAt, -Fin.getElem_fin]; rfl⟩

/-- Desk 24, OPEN and HELD or neither, with each of the three commands. -/
theorem witness_DeskSwitchesChangeOneField :
    ∀ code ∈ [(0x20 : Byte), 0x22, 0x23], ∀ flag ∈ [true, false], ∃ s : State, ∃ w, Head s (.command w) [] ∧ s.mode = .run ∧
      TargetDesk w 23 ∧ w.code = code ∧ (s.desk 23).isOpen = flag ∧ (s.desk 23).held = flag := fun code _ flag _ =>
  ⟨(ordered (word code 24)).onDesk 23 fun k => { k with isOpen := flag, held := flag }, word code 24, rfl, rfl, rfl, rfl, by
    simp [State.desk, State.onDesk, getElem_modifyAt, -Fin.getElem_fin], by
    simp [State.desk, State.onDesk, getElem_modifyAt, -Fin.getElem_fin]⟩

theorem witness_CloseDeskEmptiesIt :
    ∀ flag ∈ [true, false], ∃ s : State, ∃ w, Head s (.command w) [] ∧ w.code = 0x21 ∧ s.mode = .run ∧ TargetDesk w 0 ∧
      (s.desk 0).isOpen = flag := fun flag _ =>
  ⟨(ordered (word 0x21 1)).onDesk 0 fun k => { k with isOpen := flag }, word 0x21 1, rfl, rfl, rfl, rfl, by
    simp [State.desk, State.onDesk, getElem_modifyAt, -Fin.getElem_fin]⟩

/-- Trunk 0 DOWN with one slot, DOWN with none, and UP with desk 1. -/
theorem witness_TrunkUpDownAndClear :
    ∀ code ∈ [(0x30 : Byte), 0x31, 0x32],
      (Head (withItem (trunkIn { } { } none) (.command (word code 0))) (.command (word code 0)) [] ∧
        (trunkIn { } { } none).mode = .run ∧ (word code 0).target.toNat = (0 : TrunkId).val ∧
        ((trunkIn { } { } none).trunk 0).bringUp.state = .down ∧ (trunkIn { } { } none).slotCount 0 ≠ 0) ∧
      inRun.slotCount 0 = 0 ∧ ((trunkIn { state := .up } { } none).trunk 0).bringUp.state = .up ∧
      OnTrunk (trunkIn { state := .up } { } none) 0 0 := by
  refine fun code _ => ⟨⟨rfl, rfl, rfl, by decide +kernel, by decide +kernel⟩, by decide +kernel, by decide +kernel, 1, ?_⟩
  decide +kernel

theorem witness_WindowEnableAndDisable :
    (∃ s : State, Head s (.command (word 0x40 0 0 0xFF8)) [] ∧ (word 0x40 0 0 0xFF8).value.toNat < s.windowSize 0 ∧
      (s.window 0).setUp = true ∧ (s.window 0).enabled = false ∧
      s.inHeldSpan 0 (BitVec.ofNat 28 (s.windowBase 0 + 0xFF8)) = false ∧ inRun.window 0 = { }) ∧
    (∃ s : State, Head s (.command (word 0x41 0)) [] ∧ (s.window 0).enabled = true ∧ s.openStory 0 = none ∧ s.hold = none) ∧
    (∃ s : State, Head s (.command (word 0x41 0)) [] ∧ (s.window 0).enabled = true ∧ s.openStory 0 = some 0 ∧
      (s.story 0).window = 0 ∧ s.hold = none) ∧
    windowHolds.inHeldSpan 0 0x40 = true := by
  refine ⟨⟨withItem (windowHolds.onWindow 0 fun k => { k with enabled := false }) _, rfl, ?_⟩,
    ⟨withItem windowHolds _, rfl, ?_⟩, ⟨withItem (windowHolds.onStory 0 fun r => { r with state := .opened }) _, rfl, ?_⟩, ?_⟩ <;>
    decide +kernel

/-- A hold of a write to the window that is disabled, of one to another window, and none. -/
theorem witness_WindowEnableAndDisable_holds :
    ∀ h ∈ [none, some ⟨.ringFull 0, 64, 0⟩, some ⟨.ringFull 1, 64, 0⟩, some ⟨.tableFull 0 0, 64, 0⟩,
        some ⟨.tableFull 1 0, 64, 0⟩, some ⟨.fifoFull, 64, 0⟩], ∀ o ∈ [StoryState.live, .opened],
      ∃ s : State, s.hold = h ∧ Head s (.command (word 0x41 0)) [] ∧ s.mode = .run ∧ (s.window 0).enabled = true ∧
        (s.story 0).window = 0 ∧ (s.window 0).stories = [0] ∧ (s.story 0).state = o := fun h _ o _ =>
  ⟨{ withItem (windowHolds.onStory 0 fun r => { r with state := o }) (.command (word 0x41 0)) with hold := h },
    rfl, rfl, rfl, rfl, rfl, rfl, rfl⟩

/-- The latch clear and set below a threshold of half the window, and above it. -/
theorem witness_ReserveLatchReportsOnce :
    ∀ flag ∈ [true, false],
      (∃ s : State, s.room 0 < s.windowReserve 0 * s.windowSize 0 / 8 ∧ (s.window 0).reserveLow = flag) ∧
      windowOn.windowReserve 0 * windowOn.windowSize 0 / 8 ≤ windowOn.room 0 := by
  intro flag hf
  refine ⟨⟨{ windowHolds.onWindow 0 fun k => { k with intake := 0x38, reserveLow := flag } with setup := [(0x4B, 4)] }, ?_⟩,
    by decide +kernel⟩
  revert flag
  decide +kernel

theorem witness_ClearWindowClockAndLine :
    Head (ordered (word 0x42 7)) (.command (word 0x42 7)) [] ∧ (word 0x42 7).target.toNat = (7 : WindowId).val ∧
      (word 0x50 0 0 1439).value.toNat ≤ 1439 ∧ (word 0x52 1).target = 1 ∧ (word 0x52 2).target = 2 ∧
      (word 0x52 3).target = 3 := by
  exact ⟨rfl, rfl, by decide, rfl, rfl, rfl⟩

/-- ALERT set, active low and open-drain, drives low; NOTICE clear, open-drain, is released. -/
theorem test_lines_driven :
    let s : State := { inRun with setup := [(0x0C, 0x0B)], writer := { alert := true } }
    s.alertPin = .low ∧ s.noticePin = .released := by
  decide +kernel

theorem witness_SnapshotCapturesImage :
    Head (ordered (word 0x51 10)) (.command (word 0x51 10)) [] ∧ (word 0x51 10).target.toNat ≤ 10 ∧
      (ordered (word 0x51 10)).writer.snapshot = none ∧
      ∃ s : State, Head s (.command (word 0x51 10)) [] ∧ s.writer.snapshot ≠ none :=
  ⟨rfl, by decide, rfl,
    ⟨{ ordered (word 0x51 10) with writer := { snapshot := some ⟨0, [], 0⟩ } }, rfl, by
      intro e
      cases e⟩⟩

/-- The first bytes of the general image after reset, those of window 0 and trunk 0 there, and story 0 and desk 1 of a state
that sends. -/
theorem test_images :
    (State.reset.image 0).take 16 = [0x18, 0x04, 1, 0, 0, 0, 0, 0, 0, 0, 0, 0, 0, 0, 24, 0] ∧
      (windowImage windowHolds 0) = [1, 1, 0, 0, 0, 1, 0, 0, 0, 0, 0, 0, 0, 1, 0, 0xFF] ∧
      (trunkImage State.reset 0).take 16 = [0, 0xFF, 0, 0, 0, 0, 0, 0, 0, 0, 0, 0, 0, 0xFF, 0xFF, 0xFF] ∧
      storyImage inText 0 = [0, 0x1B, 0, 0, 0, 0, 0xFF, 0xFF, 2, 0, 0, 0, 0, 0, 0, 0] ∧
      deskImage inText 0 = [1, 0, 0xFF, 0, 1, 0, 0, 0, 0xFF, 0, 0xFF, 0xFF, 0, 0, 0, 0] := by
  decide +kernel

/-- Fifteen records with a ring, sixteen, and no ring. -/
theorem witness_ReportJoinsOrIsLost :
    (∃ s : State, s.writer.queue.length = 15 ∧ s.ringCode ≠ 0) ∧ (∃ s : State, s.writer.queue.length = 16 ∧ s.ringCode ≠ 0) ∧
      inRun.ringCode = 0 :=
  ⟨⟨{ inRun with setup := ringSetup, writer := { queue := List.replicate 15 aRecord } }, rfl, by decide +kernel⟩,
    ⟨{ inRun with setup := ringSetup, writer := { queue := List.replicate 16 aRecord } }, rfl, by decide +kernel⟩,
    by decide +kernel⟩

/-- Each edge select; and at 23:59 with both edges selected, a story HELD for 0:00 and one HELD for 0:01. -/
theorem witness_MinuteAdvanceReleasesHeld :
    (∀ x ∈ [((0 : Byte), false), (1, true), (2, false), (3, true)], ∃ s : State, s.edgeSelect = x.1.toNat) ∧
      ∃ s : State, s.edgeSelect = 3 ∧ (s.clock.minute + 1) % 1440 = 0 ∧ s.completion = [0, 1] ∧
        (s.story 0).state = .held ∧ (s.story 0).embargo = some 0 ∧ (s.story 0).mode = .new ∧
        (s.story 1).state = .held ∧ (s.story 1).embargo ≠ some 0 :=
  ⟨fun x _ => ⟨{ inRun with setup := [(0x20, x.1)] }, by
      simp [State.edgeSelect, Shadow.read, Cells.find]⟩,
    ⟨{ (inRun.onStory 0 fun r => { r with state := .held, embargo := some 0 }).onStory 1 fun r =>
          { r with state := .held, embargo := some 1 } with
        setup := [(0x20, 3)], clock := { minute := 1439 }, completion := [0, 1] }, by decide +kernel⟩⟩

/-! ### Witnesses: intake and placement -/

/-- Window 0 ready for a START byte at 100h: code page 0 keeps the byte 01h. -/
def startAt : State := { windowOn with setup := [(0x601, 1)] }

/-- The story table full of LIVE stories. -/
def tableFull : State := { startAt with stories := Vector.replicate 128 { state := .live } }

theorem witness_StartOpensStory :
    InForm 0x100 1 ∧ enabledBytes 0x100 (oneByte 1) ≠ [] ∧
      ∀ x ∈ [(startAt, some (0 : HandleId)), (tableFull, none)],
        TakenNow x.1 (.write 0x100 (oneByte 1)) ∧ x.1.touchedWindow (enabledBytes 0x100 (oneByte 1)) = none ∧
        x.1.inPage 0x100 = false ∧ x.1.enabledWindow 0x100 = some 0 ∧ (x.1.window 0).stories = [] ∧
        (x.1.window 0).parse = .hunt ∧
        enabledBytes 0x100 ((oneByte 1).map (x.1.translateBeat 0)) = [(0x100, 0x01)] ∧
        (x.1.window 0).intake = 0x100 ∧ x.1.entryToGive = x.2 := by
  unfold InForm TakenNow
  decide +kernel

/-- Handle 0 FREE; and no handle FREE. -/
theorem witness_StartOpensStory_entries :
    (State.reset.story 0).state = .free ∧ (∀ g : HandleId, g < 0 → (State.reset.story g).state ≠ .free) ∧
      ∀ g, (tableFull.story g).state ≠ .free :=
  ⟨by decide +kernel, fun g h => absurd h (Nat.not_lt_zero g.val), by decide +kernel⟩

/-- Fields without an FS byte; a number of as many digits as it may have, and one of too many. -/
theorem witness_LeadCheckedByFields :
    (∀ f ∈ [[0x34, 0x31, 0x32], [0x42], [0x30], [], [0x4E], [], ([] : List Byte)], (0x1F : Byte) ∉ f) ∧
      numberOf 4 [0x39, 0x39, 0x39, 0x39] = some 9999 ∧ numberOf 4 [0x31, 0x30, 0x30, 0x30, 0x30] = none := by
  decide +kernel

/-- Fields at the ends of their forms (Table 3-4): `0`, `07,24` and `25`; a number given twice; a slug of 24 characters and of
25; a reference of each mode; an embargo that is no time. -/
theorem witness_LeadCheckedByFields_forms :
    selectorOf [0x30] = some .all ∧ selectorOf [0x30, 0x37, 0x2C, 0x32, 0x34] = some (.desks [6, 23]) ∧
      selectorOf [0x32, 0x35] = none ∧ selectorOf [0x31, 0x2C, 0x30, 0x31] = none ∧ selectorOf [] = none ∧
      slugOf (List.replicate 24 0x7E) = some (List.replicate 24 0x7E) ∧ slugOf (List.replicate 25 0x20) = none ∧
      slugOf [0x7F] = none ∧ classOf [0x44] = some .deferred ∧ classOf [0x44, 0x44] = none ∧ modeOf [0x4B] = some .kill ∧
      referenceOf .new [] = some none ∧ referenceOf .kill [0x37] = some (some 7) ∧ referenceOf .writeThru [] = none ∧
      embargoOf [0x32, 0x33, 0x35, 0x39] = some (some 1439) ∧ embargoOf [0x30] = none := by
  decide +kernel

/-- Window 0 with the OPEN story 0 from 40h, its parser in a state at 100h, as code page 0 translates the bytes 01h to 03h and
`B` to themselves. -/
def reading (parse : ParseState) (lead : List Byte) (count : Nat) : State :=
  { (windowOn.onWindow 0 fun k =>
      { k with parse := parse, lead := lead, textCount := count, extents := [⟨0x80, 128⟩], stories := [0] }).onStory 0 fun r =>
        { r with state := .opened, origin := 0x40 } with
    setup := [(0x601, 1), (0x602, 2), (0x603, 3), (0x642, 0x42)] }

/-- Each parse state with a byte of each kind in sequence: START, TEXT, END and another; the 97th byte of a lead and the 65536th
of a text as well as the ones before. -/
theorem witness_IntakeReadsByState :
    ∀ parse ∈ [ParseState.hunt, .lead, .text, .skip], ∀ x ∈ [(List.replicate 95 (0x30 : Byte), 65534),
        (List.replicate 96 0x30, 65535)], ∀ v ∈ [(0x01 : Byte), 0x02, 0x03, 0x42],
      TakenNow (reading parse x.1 x.2) (.write 0x100 (oneByte v)) ∧
        enabledBytes 0x100 ((oneByte v).map ((reading parse x.1 x.2).translateBeat 0)) = [(0x100, v)] ∧
        (reading parse x.1 x.2).touchedWindow (enabledBytes 0x100 (oneByte v)) = none ∧
        (reading parse x.1 x.2).inPage 0x100 = false ∧ (reading parse x.1 x.2).enabledWindow 0x100 = some 0 ∧
        ((reading parse x.1 x.2).window 0).intake = 0x100 ∧ 1 < (reading parse x.1 x.2).room 0 ∧
        ((reading parse x.1 x.2).window 0).parse = parse ∧ ((reading parse x.1 x.2).window 0).lead = x.1 ∧
        ((reading parse x.1 x.2).window 0).textCount = x.2 ∧ (reading parse x.1 x.2).openStory 0 = some 0 ∧
        ((reading parse x.1 x.2).story 0).window = 0 ∧ (reading parse x.1 x.2).entryToGive = some 1 := by
  unfold TakenNow
  decide +kernel

/-- A lead that passes and one that fails, each with a story to give in its place; a story with an embargo for another minute,
this one, and none; a byte that grows the last extent and one that opens another. -/
theorem witness_IntakeReadsByState_values :
    (∃ f, checkLead [0x31, 0x1F, 0x46, 0x1F, 0x30, 0x1F, 0x1F, 0x4E, 0x1F, 0x1F] = .ok f) ∧
      checkLead [] = .error .fieldCount ∧ InForm 0x100 1 ∧
      (abandoned (reading .lead [] 0) 0 0 10 .lead).entryToGive = some 0 ∧
      (abandoned (reading .text [] 0) 0 0 12 .lead).entryToGive = some 0 ∧
      (0x100 : Addr) = 0x80 + BitVec.ofNat 28 128 ∧ (0x100 : Addr) ≠ 0x80 + BitVec.ofNat 28 127 ∧
      ∀ e ∈ [none, some 0, some 1], (((reading .text [] 0).onStory 0 fun r => { r with embargo := e }).story 0).embargo = e :=
  ⟨⟨{ serial := 1, cls := .flash, selector := .all, slug := [], mode := .new, reference := none, embargo := none },
    by decide +kernel⟩, by decide +kernel, by unfold InForm; decide, by decide +kernel, by decide +kernel, by decide,
    by decide, by decide +kernel⟩

/-- No room, in sequence with as many bytes as the room; no room, out of sequence up to the guard; and out of sequence with room,
in each parse state. -/
theorem witness_IntakeReadsByState_room :
    ((windowHolds.onWindow 0 fun k => { k with intake := 0x38 }).inSequence 0 [(0x38, 0), (0x39, 0)] = true ∧
      (windowHolds.onWindow 0 fun k => { k with intake := 0x3E }).room 0 = 2 ∧
      (windowHolds.window 0).stories = 0 :: []) ∧
    (windowHolds.inSequence 0 [(0x3F, 0)] = false ∧ windowHolds.afterLast 0 [(0x3F, 0)] = (windowHolds.story 0).origin) ∧
    ∀ parse ∈ [ParseState.hunt, .lead, .text, .skip],
      TakenNow (reading parse [] 0) (.write 0x110 (oneByte 0x42)) ∧
        (reading parse [] 0).inSequence 0 [(0x110, 0x42)] = false ∧
        (reading parse [] 0).touchedWindow (enabledBytes 0x110 (oneByte 0x42)) = none ∧
        (reading parse [] 0).enabledWindow 0x110 = some 0 ∧
        (reading parse [] 0).afterLast 0 [(0x110, 0x42)] ≠ ((reading parse [] 0).story 0).origin := by
  unfold TakenNow
  decide +kernel

/-- A write of two enabled bytes, at the start of a beat. -/
def twoBytes (b c : Byte) : List Beat := [⟨(c ++ b).setWidth 64, 3⟩]

/-- A byte that goes on with the last extent of a text. -/
theorem text_byteRead {w : WindowId} {s : State} {b : Addr} {v : Byte} {h : HandleId} {e : Extent}
    (parse : (s.window w).parse = .text) (opened : s.openStory w = some h) (own : (s.story h).window = w)
    (start : v ≠ 0x01) (fin : v ≠ 0x03) (count : ¬ 65535 ≤ (s.window w).textCount) (last : (s.window w).extents = [e])
    (grows : b = e.start + BitVec.ofNat 28 e.length) :
    ByteRead w s b v (s.onWindow w fun k =>
      { k with textCount := k.textCount + 1, extents := [⟨e.start, e.length + 1⟩] }) := by
  unfold ByteRead
  rw [parse]
  refine ⟨h, opened, own, ?_⟩
  unfold TextRead
  rw [if_neg start, if_neg fin, if_neg count]
  exact ⟨[], e, last, by rw [if_pos grows]; rfl⟩

/-- END read in a text. -/
theorem end_byteRead {w : WindowId} {s : State} {b : Addr} {h : HandleId} (parse : (s.window w).parse = .text)
    (opened : s.openStory w = some h) (own : (s.story h).window = w) :
    ByteRead w s b 0x03 ((completed s h (s.window w).textCount (s.window w).extents).onWindow w fun k =>
      { k with parse := .hunt, lead := [], textCount := 0, extents := [] }) := by
  unfold ByteRead
  rw [parse]
  exact ⟨h, opened, own, by unfold TextRead; rw [if_neg (by decide), if_pos rfl]⟩

/-- A text byte and END in one write, read in TEXT. -/
theorem witness_IntakeReadsByState_bytes :
    IntakeTaken (reading .text [] 0) 0 0x100 (twoBytes 0x42 0x03) [(0x100, 0x42), (0x101, 0x03)] ∧
      (reading .text [] 0).inSequence 0 [(0x100, 0x42), (0x101, 0x03)] = true ∧ 2 < (reading .text [] 0).room 0 ∧
      ∃ t, BytesRead 0 [(0x100, 0x42), (0x101, 0x03)] (reading .text [] 0) t := by
  refine ⟨by unfold IntakeTaken InForm TakenNow; decide +kernel, by decide +kernel, by decide +kernel, _, _,
    text_byteRead (h := 0) (e := ⟨0x80, 128⟩) ?_ ?_ ?_ ?_ ?_ ?_ ?_ ?_, _, end_byteRead (h := 0) ?_ ?_ ?_, rfl⟩ <;>
    decide +kernel

/-- Window 0 in TEXT with an OPEN story that has an embargo, no entry of the table being FREE or SPENT. -/
def readingFull : State :=
  { reading .text [] 0 with
    stories := (Vector.replicate 128 { state := .live }).set 0 { state := .opened, origin := 0x40, embargo := some 5 } }

/-- END and START in one write, begun in TEXT: the START finds no entry. -/
theorem witness_IntakeReadsByState_tableFull :
    IntakeTaken readingFull 0 0x100 (twoBytes 0x03 0x01) ([(0x100, 0x03)] ++ (0x101, 0x01) :: []) ∧
      readingFull.inSequence 0 ([(0x100, 0x03)] ++ (0x101, 0x01) :: []) = true ∧ 2 < readingFull.room 0 ∧
      ∃ t, BytesRead 0 [(0x100, 0x03)] readingFull t ∧ (t.window 0).parse = .hunt ∧ t.entryToGive = none := by
  refine ⟨by unfold IntakeTaken InForm TakenNow; decide +kernel, by decide +kernel, by decide +kernel, _,
    ⟨_, end_byteRead (h := 0) ?_ ?_ ?_, rfl⟩, ?_, ?_⟩ <;> decide +kernel

/-- A queue entry of story 1. -/
def anEntry (kind : ItemKind) (cls : StoryClass) : DeskEntry := { handle := 1, kind := kind, cls := cls }

/-- Desk 1 OPEN with story 0 current, 1 saved, 2 and 3 in the follow-on places, 4 queued; and a ring. -/
def deskFull : State :=
  { (([0, 1] : List HandleId).foldl (fun s h => s.setMark h 0 .active) inText).onDesk 0 fun k =>
      { k with
        saved := some { handle := 1, resume := .header, cutNotice := none }, directNext := some ⟨2, .routine⟩
        savedFollowOn := some ⟨3, .routine⟩, queue := [{ anEntry .story .flash with handle := 4 }] } with
    setup := ringSetup, fifo := [[.command (word 0x21 1)]] }

theorem witness_CloseDeskEmptiesIt_full :
    Head deskFull (.command (word 0x21 1)) [] ∧ deskFull.mode = .run ∧ (deskFull.desk 0).isOpen = true ∧
      (deskFull.desk 0).context = some (sending .text []) ∧ (∃ v, (deskFull.desk 0).saved = some v ∧ v.handle = 1) ∧
      deskFull.markAt 0 0 = .active ∧ deskFull.markAt 1 0 = .active ∧
      Follows (deskFull.desk 0).directNext 2 ∧ Follows (deskFull.desk 0).savedFollowOn 3 ∧
      (∀ h ∈ ([0, 1] : List HandleId), ¬ Waits (deskFull.desk 0) h) ∧
      deskFull.ringCode ≠ 0 ∧ deskFull.writer.queue.length < 16 := by
  refine ⟨rfl, rfl, by decide +kernel, by decide +kernel, ⟨⟨1, .header, none⟩, by decide +kernel, rfl⟩, by decide +kernel,
    by decide +kernel, ⟨⟨2, .routine⟩, by decide +kernel, rfl⟩, ⟨⟨3, .routine⟩, by decide +kernel, rfl⟩, fun h hh => ?_,
    by decide +kernel, by decide +kernel⟩
  have hq : (deskFull.desk 0).queue = [{ anEntry .story .flash with handle := 4 }] := by decide +kernel
  have hd : (deskFull.desk 0).directNext = some ⟨2, .routine⟩ := by decide +kernel
  have hf : (deskFull.desk 0).savedFollowOn = some ⟨3, .routine⟩ := by decide +kernel
  unfold Waits Follows
  rw [hq, hd, hf]
  simp only [List.mem_cons, List.not_mem_nil, or_false] at hh
  rcases hh with rfl | rfl <;> simp [anEntry]

/-- 31 entries; and 32 with a tail of either kind, with an entry of the tail's class, and of the next higher one, of both
kinds. -/
theorem witness_QueueInsertionByClass :
    (∃ s : State, (s.desk 23).queue.length = 31) ∧
      ∀ last ∈ [ItemKind.story, .killNotice], ∃ s : State, 32 ≤ (s.desk 23).queue.length ∧
        (s.desk 23).queue = List.replicate 31 (anEntry .story .urgent) ++ [anEntry last .routine] ∧
        (anEntry last .routine).kind = last ∧
        ∀ kind ∈ [ItemKind.story, .killNotice], (anEntry kind .routine).kind = kind ∧
          (anEntry last .routine).cls.code ≤ (anEntry kind .routine).cls.code ∧
          (anEntry kind .urgent).cls.code < (anEntry last .routine).cls.code := by
  refine ⟨⟨inRun.onDesk 23 fun k => { k with queue := List.replicate 31 (anEntry .story .urgent) }, by decide +kernel⟩,
    fun last h => ⟨inRun.onDesk 23 fun k =>
      { k with queue := List.replicate 31 (anEntry .story .urgent) ++ [anEntry last .routine] }, ?_⟩⟩
  revert last
  decide +kernel

/-- A LIVE story whose last mark is DONE and whose last holder is the item that ends becomes SPENT; a KILLED one becomes FREE;
a story with another holder stands. -/
theorem test_settled :
    ((settled (inRun.onStory 0 fun r => { r with state := .live }) 0).story 0).state = .spent ∧
      ((settled (inRun.onStory 0 fun r => { r with state := .killed }) 0).story 0).state = .free ∧
      ((settled (inRun.onStory 0 fun r => { r with state := .live, holders := 1 }) 0).story 0).state = .live := by
  decide +kernel

/-- A HELD story for all desks of which desk 1 alone is OPEN; and no desk OPEN. -/
theorem witness_NewStoryPlacedAtKeptDesks :
    (∃ s : State, (s.story 0).mode = .new ∧ (∀ d, (s.desk d).queue.length < 32) ∧ (s.story 0).selector = .all ∧
      (s.desk 0).isOpen = true ∧ s.classRefused 0 (s.story 0).cls = false ∧ s.agencyRefused 0 (s.story 0).agency = false) ∧
    (∀ d, (inRun.desk d).isOpen = false) ∧ (∀ d, inRun.markAt 0 d = .absent) ∧ (inRun.story 0).holders = 0 ∧
      (inRun.story 0).mode = .new :=
  ⟨⟨(inText.onStory 0 fun r => { r with state := .held, selector := .all }), by decide +kernel⟩, by decide +kernel,
    by decide +kernel, by decide +kernel, by decide +kernel⟩

/-- Desk 1 OPEN and empty but for what is given, with every phrase one letter. -/
def deskReady (direct : Option FollowOn) (saved : Option SavedContext) (queue : List DeskEntry) : State :=
  { inRun.onDesk 0 (fun k => { k with isOpen := true, directNext := direct, saved := saved, queue := queue }) with
    setup := (List.finRange 11).flatMap fun p => [(0x3C0 + 0x20 * p.val, 1), (0x3C1 + 0x20 * p.val, 0x41)] }

/-- Desk 1, OPEN, sends story 0 and has saved story 2; story 0 is LIVE, of agency 0 and serial 5, with a mark there. -/
def cutting (m : Mark) (direct saved : Option FollowOn) : State :=
  ((deskSends .text []).onStory 0 fun r => { r with state := .live, serial := 5, marks := r.marks.set 0 m }).onDesk 0 fun k =>
    { k with saved := some ⟨2, .header, none⟩, directNext := direct, savedFollowOn := saved }

/-- The current item and the saved context that a cut order names, with the notice left out and not. -/
theorem witness_CutsWriteThroughsAndKills_cuts :
    ((cutting .active none none).desk 0).context = some (sending .text []) ∧ (sending .text []).kind = .story ∧
      ((cutting .active none none).desk 0).saved = some ⟨2, .header, none⟩ ∧ (sending .text []).handle ≠ 2 ∧
      LeftOut (cutting .active none none) .kill ∧ ¬ LeftOut (deskReady none none []) .kill ∧
      ∀ c x, x = { c with segment := .notice .kill 0 .finish, layout := (deskReady none none []).noticeLayout .kill 0,
                          openingDone := false } →
        goesOn (deskReady none none []) 0 c (.notice .kill 0 .finish) x := by
  have e : ¬ LeftOut (deskReady none none []) .kill := fun h => absurd h.1 (by decide +kernel)
  exact ⟨by decide +kernel, rfl, by decide +kernel, by decide, ⟨by decide +kernel, by decide⟩, e,
    fun c x h => ⟨fun l => absurd l e, fun _ => h⟩⟩

/-- Each mark at an OPEN desk, its follow-on places naming the story or not; and a CLOSED desk. -/
theorem witness_CutsWriteThroughsAndKills_marks :
    (∀ m ∈ [Mark.absent, .queued, .active, .done, .dropped, .cut], ∀ f ∈ [none, some ⟨0, .urgent⟩, some ⟨3, .urgent⟩],
      (cutting m f f).markAt 0 0 = m ∧ ((cutting m f f).desk 0).isOpen = true ∧ ((cutting m f f).desk 0).directNext = f ∧
        ((cutting m f f).desk 0).savedFollowOn = f) ∧
      Follows (some ⟨0, .urgent⟩) 0 ∧ ¬ Follows (some ⟨3, .urgent⟩) 0 ∧ ¬ Follows none 0 ∧
      (inRun.desk 0).isOpen = false ∧ Keeps ((cutting .cut none none).onStory 1 fun r => { r with selector := .all }) 1 0 ∧
      ¬ Keeps (cutting .cut none none) 1 0 := by
  refine ⟨by decide +kernel, ⟨_, rfl, rfl⟩, ?_, ?_, by decide +kernel, ⟨Or.inl (by decide +kernel), by decide +kernel,
    by decide +kernel, by decide +kernel⟩, ?_⟩
  · rintro ⟨x, h, e⟩
    cases h
    exact absurd e (by decide)
  · rintro ⟨x, h, _⟩
    cases h
  · rintro ⟨h | ⟨set, h, m⟩, _⟩
    · exact absurd h (by decide +kernel)
    · have e : ((cutting .cut none none).story 1).selector = .desks [] := by decide +kernel
      rw [e] at h
      cases h
      cases m

/-- Story 1, which refers to serial 5, with the LIVE story 0 and the newer HELD story 3 of that serial. -/
def releasing (mode : StoryMode) : State :=
  { ((cutting .active none none).onStory 1 fun r => { r with mode := mode, refSerial := some 5 }).onStory 3 fun r =>
      { r with state := .held, serial := 5 } with
    completion := [0, 3] }

/-- A write-through and a kill with two stories that qualify, the newer of them HELD, and with none. -/
theorem witness_CutsWriteThroughsAndKills_release :
    (∀ mode ∈ [StoryMode.writeThru, .kill],
      ((releasing mode).story 1).mode = mode ∧ (releasing mode).completion = [0] ++ 3 :: [] ∧
        Qualifies (releasing mode) 1 3 ∧ Qualifies (releasing mode) 1 0 ∧ ((releasing mode).story 3).state = .held ∧
        (∀ d, ((releasing mode).desk d).queue.length < 32)) ∧
      (∀ mode ∈ [StoryMode.writeThru, .kill],
        (({ releasing mode with completion := [2] } : State).story 1).mode = mode ∧
          ¬ Qualifies { releasing mode with completion := [2] } 1 2) := by
  unfold Qualifies
  decide +kernel

/-- Story 0 ACTIVE at desk 1 as its current item, and DONE there with an empty queue, with a KILL of it waiting. -/
theorem witness_CutsWriteThroughsAndKills_host :
    ∀ m ∈ [Mark.active, .done], ∃ s : State, Head s (.command (word 0x11 0)) [] ∧ s.mode = .run ∧
      (word 0x11 0).handle.toNat = (0 : HandleId).val ∧ (s.story 0).generation = (word 0x11 0).generation ∧
      (s.story 0).state = .live ∧ s.markAt 0 0 = m ∧ (s.desk 0).context = some (sending .text []) ∧
      (s.desk 0).isOpen = true ∧ (s.desk 0).queue.length < 32 := by
  refine fun m hm => ⟨withItem (cutting m none none) (.command (word 0x11 0)), rfl, rfl, rfl, ?_⟩
  revert m
  decide +kernel

/-! ### Witnesses: desk senders -/

theorem witness_TakeNextItemInOrder :
    (inRun.desk 0).isOpen = false ∧ (inText.desk 0).context ≠ none ∧
      ((inRun.onDesk 0 fun k => { k with held := true }).desk 0).held = true ∧
      ((deskReady none none []).desk 0).directNext = none ∧ ((deskReady none none []).desk 0).saved = none ∧
      ((deskReady none none []).desk 0).queue = [] ∧
      ∀ x ∈ [(some ⟨3, .urgent⟩, none, []), (none, some ⟨3, .text 7, none⟩, []), (none, some ⟨3, .header, none⟩, []),
          (none, none, [anEntry .story .flash]), (none, none, [anEntry .killNotice .flash])],
        ((deskReady x.1 x.2.1 x.2.2).desk 0).isOpen = true ∧ ((deskReady x.1 x.2.1 x.2.2).desk 0).context = none ∧
          ((deskReady x.1 x.2.1 x.2.2).desk 0).held = false ∧
          ((deskReady x.1 x.2.1 x.2.2).desk 0).directNext = x.1 ∧ ((deskReady x.1 x.2.1 x.2.2).desk 0).saved = x.2.1 ∧
          ((deskReady x.1 x.2.1 x.2.2).desk 0).queue = x.2.2 ∧ (deskReady x.1 x.2.1 x.2.2).phrase 5 ≠ [] ∧
          (deskReady x.1 x.2.1 x.2.2).phrase 6 ≠ [] := by
  decide +kernel

/-- A saved context that was cut, with its notice and without, and with a follow-on behind it; a RESUME left out, and one with
phrase 10 alone; a KILL_NOTICE item left out. -/
theorem witness_TakeNextItemInOrder_notices :
    (∃ y, goesOn (deskReady none none []) 0 (sending .header []) (.notice .kill 0 .finish) y) ∧
      endsAt inText (.notice .kill 0 .finish) ∧
      (∃ y, goesOn inText 0 (sending .header []) (.notice .resume 0 (.text 1)) y) ∧
      (LeftOut inText .resume ∧ ¬ LeftOut { inText with setup := [(0x500, 1), (0x501, 0x41)] } .resume) ∧
      ∀ n ∈ [none, some NoticeKind.kill], ∃ s : State,
        (s.desk 0).isOpen = true ∧ (s.desk 0).context = none ∧ (s.desk 0).held = false ∧ (s.desk 0).directNext = none ∧
          (s.desk 0).saved = some ⟨3, .text 7, n⟩ ∧ (s.desk 0).savedFollowOn = some ⟨4, .urgent⟩ ∧ s.phrase 6 = [] := by
  refine ⟨⟨_, fun h => absurd h.1 (by decide +kernel), fun _ => rfl⟩, ⟨⟨by decide +kernel, by decide⟩, trivial⟩,
    ⟨_, fun _ => rfl, fun h => absurd ⟨by decide +kernel, fun _ => by decide +kernel⟩ h⟩,
    ⟨⟨by decide +kernel, fun _ => by decide +kernel⟩, fun h => absurd (h.2 rfl) (by decide +kernel)⟩, fun n _ =>
      ⟨inRun.onDesk 0 fun k =>
        { k with isOpen := true, saved := some ⟨3, .text 7, n⟩, savedFollowOn := some ⟨4, .urgent⟩ }, rfl, rfl, rfl, rfl, rfl,
        rfl, (by decide +kernel : inRun.phrase 6 = [])⟩⟩

/-- Desk 1 with a number of codes in its buffer. -/
def buffered (s : State) (n : Nat) : State := s.onDesk 0 fun k => { k with buffer := List.replicate n ⟨4, false⟩ }

/-- A group of one code in the header, and at the end of the trailer: with the last place free, and with none. -/
theorem witness_ComposeGroupIsWhole_layouts :
    ∀ x ∈ [(Segment.header, [Group.space, .bell]), (.trailer, [.space])], ∀ n ∈ [7, 8],
      ((buffered (deskSends x.1 x.2) n).desk 0).context = some (sending x.1 x.2) ∧
        ((buffered (deskSends x.1 x.2) n).desk 0).preempt = false ∧ x.1 ≠ .text ∧
        ((buffered (deskSends x.1 x.2) n).groupCodes 69 ⟨.letters, 0⟩ .space).codes = [4] ∧
        ((buffered (deskSends x.1 x.2) n).desk 0).buffer.length = n := by
  decide +kernel

/-- Text not staged; the first of two bytes staged; no current item; and a flash break that is due. -/
theorem witness_ComposeGroupIsWhole_text :
    ((inText.desk 0).context = some (sending .text []) ∧ (inText.desk 0).preempt = false ∧
      inText.stagedByte 0 (sending .text []) = none) ∧
    (∃ s : State, (s.desk 0).context = some (sending .text []) ∧ (s.desk 0).preempt = false ∧
      s.stagedByte 0 (sending .text []) = some 0x41 ∧
      (s.groupCodes 69 ⟨(s.desk 0).shift, (s.desk 0).column⟩ (.char 0x41)).codes.length ≤ 8 ∧
      (s.desk 0).buffer = [] ∧ (sending .text []).cursor + 1 < (s.story 0).textCount) ∧
    (inRun.desk 0).context = none ∧
    ((inText.onDesk 0 fun k => { k with preempt := true, queue := [anEntry .story .flash] }).breakReady 0) ≠ none := by
  refine ⟨by decide +kernel, ⟨inText.onDesk 0 fun k =>
    { k with staging0 := .full ⟨0xE0, 0, 1⟩ (List.replicate 32 0x41) }, ?_⟩, ?_⟩ <;> decide +kernel

/-- The last group of a header, a trailer, a notice that ends the item and one that goes on; where it goes on to, and an end
after an empty phrase; a resumed TEXT; the last byte of a text; and a preempt flag with the opening still to come. -/
theorem witness_ComposeGroupIsWhole_ends :
    (∀ seg ∈ [Segment.header, .trailer, .notice .kill 0 .finish, .notice .resume 0 (.text 1)],
      ((buffered (deskSends seg [.lineEnd]) 6).desk 0).context = some (sending seg [.lineEnd]) ∧
        ((buffered (deskSends seg [.lineEnd]) 6).desk 0).preempt = false ∧ seg ≠ .text ∧
        ((buffered (deskSends seg [.lineEnd]) 6).desk 0).buffer.length + 2 = 8 ∧
        ((buffered (deskSends seg [.lineEnd]) 6).groupCodes 69 ⟨.letters, 0⟩ .lineEnd).codes = [8, 2] ∧
        [(8 : FiveUnit), 2].getLast? = some 2) ∧
    goesOn inText 0 (sending .trailer []) (.text 1) (atText inText 0 (sending .trailer []) 1 false) ∧
    (∀ o ∈ [1, 2], 1 ≤ o ∧ o ≤ (inText.story 0).textCount) ∧
    (endsAt inText (.notice .restored 0 .finish) ∧ inText.phrase 8 = []) ∧
    (((inText.onDesk 0 fun k =>
        { k with preempt := true, context := some { sending .text [] with openingDone := false } }).desk 0).context =
      some { sending .text [] with openingDone := false } ∧ (inText.groupCodes 69 ⟨.letters, 0⟩ .opening).codes = [31]) ∧
    ((inText.onStory 0 fun r => { r with textCount := 1 }).story 0).textCount ≤ (sending .text []).cursor + 1 := by
  refine ⟨by decide +kernel, rfl, by decide +kernel, ⟨⟨⟨by decide +kernel, by decide⟩, trivial⟩, by decide +kernel⟩,
    ⟨by decide +kernel, by decide +kernel⟩, by decide +kernel⟩

/-- Conversion at the column limit and before it, in either case, by each shift class. -/
theorem test_groups_by_shift_class :
    let s : State := { inRun with setup := [(0xA41, 0x23), (0xA42, 0x41), (0xA43, 0x65)] }
    (s.groupCodes 2 ⟨.figures, 2⟩ (.char 0x41)) = ⟨[8, 2, 31, 3], ⟨.letters, 1⟩, true⟩ ∧
      (s.groupCodes 2 ⟨.letters, 1⟩ (.char 0x42)) = ⟨[27, 1], ⟨.figures, 2⟩, false⟩ ∧
      (s.groupCodes 2 ⟨.figures, 1⟩ (.char 0x43)) = ⟨[5], ⟨.figures, 2⟩, false⟩ ∧
      (s.groupCodes 2 ⟨.figures, 2⟩ (.char 0x44)) = ⟨[], ⟨.figures, 2⟩, false⟩ ∧
      (s.groupCodes 2 ⟨.letters, 2⟩ .space) = ⟨[8, 2, 4], ⟨.letters, 1⟩, true⟩ := by
  decide +kernel

/-- Desk 1 sending story 0 with story 1, a flash, at its queue head. -/
def flashDue : State := inText.onDesk 0 fun k => { k with preempt := true, queue := [anEntry .story .flash] }

theorem witness_FlashBreakSavesItem :
    (flashDue.desk 0).context = some (sending .text []) ∧ (flashDue.desk 0).queue = anEntry .story .flash :: [] ∧
      (flashDue.desk 0).preempt = true ∧ FlashWaits flashDue 0 ∧ (sending .text []).openingDone = true ∧
      (inText.desk 0).preempt = false := by
  refine ⟨by decide +kernel, by decide +kernel, by decide +kernel, ?_, rfl, by decide +kernel⟩
  exact ⟨by decide +kernel, by decide +kernel, by decide +kernel,
    ⟨sending .text [], by decide +kernel, rfl, by decide +kernel, Or.inr rfl⟩,
    ⟨anEntry .story .flash, [], by decide +kernel, rfl, rfl⟩⟩

/-! ### Witnesses: trunks -/

theorem witness_LineCodeFourOfSeven :
    ∀ n ∈ [1, 7], ((trunkIn { } { } (some { dataFrame with unit := n })).trunk 0).transmitter =
      some { dataFrame with unit := n } := by
  decide +kernel

/-- At the boundary of a data frame and of a bring-up frame; inside a data frame; and at a last symbol, out of DOWN and in
it. -/
theorem witness_FrameChosenAtBoundary :
    (∀ st ∈ [TrunkState.up, .search, .down],
      ∀ f ∈ [{ dataFrame with symbol := 2 }, { dataFrame with symbol := 6, kind := .bringUp 0 },
          { dataFrame with symbol := 1 }, { dataFrame with stopping := true }],
        ((trunkIn { state := st } { } (some f)).trunk 0).transmitter = some f ∧
          ((trunkIn { state := st } { } (some f)).trunk 0).bringUp.state = st ∧
          (trunkIn { state := st } { } (some f)).slotCount 0 = 1) := by
  decide +kernel

/-- A data frame of trunk 0 in UP at the slot of desk 1, with what the desk holds. -/
def slotDue (buffer : List BufferCode) (context : Option SendContext) (line : Bool) : State :=
  (trunkIn { state := .up } { } (some dataFrame)).onDesk 0 fun k =>
    { k with isOpen := true, buffer := buffer, context := context, line := line }

/-- A spare slot; and the slot of desk 1 under LINE, without an item, with a code, with the end of the trailer, of a cut notice
and of a kill notice, and empty with the underrun latch clear and set. -/
theorem witness_SlotCarriesByTable :
    ({ trunkIn { state := .up } { } (some dataFrame) with setup := [(0xD0, 1)] } : State).slotDesk 0 1 = none ∧
      ∀ x ∈ [([], none, true), ([], none, false), ([⟨4, false⟩], some (sending .header [.space]), false),
          ([⟨4, true⟩], some (sending .trailer []), false),
          ([⟨4, true⟩], some (sending (.notice .correction 0 .finish) []), false),
          ([⟨4, true⟩], some { sending (.notice .killNotice 0 .finish) [] with kind := .killNotice }, false),
          ([], some (sending .text []), false),
          ([], some { sending .text [] with underrunLatch := true }, false)],
        ((slotDue x.1 x.2.1 x.2.2).trunk 0).transmitter = some dataFrame ∧
          dataFrame.kind = .data ∧ dataFrame.stopping = false ∧
          dataFrame.symbol ≤ (slotDue x.1 x.2.1 x.2.2).slotCount 0 ∧
          (slotDue x.1 x.2.1 x.2.2).slotDesk 0 dataFrame.symbol = some 0 ∧
          ((slotDue x.1 x.2.1 x.2.2).trunk 0).bringUp.state = .up ∧ ((slotDue x.1 x.2.1 x.2.2).desk 0).line = x.2.2 ∧
          ((slotDue x.1 x.2.1 x.2.2).desk 0).farStop = false ∧ ((slotDue x.1 x.2.1 x.2.2).desk 0).buffer = x.1 ∧
          ((slotDue x.1 x.2.1 x.2.2).desk 0).context = x.2.1 := by
  decide +kernel

/-- Each trunk state of the clauses, in break and out of it, with desk 1 on the trunk. -/
theorem witness_BreaksMoveTheTrunk :
    ∀ st ∈ [TrunkState.down, .broken, .search, .up], ∀ b ∈ [true, false],
      ((trunkIn { state := st } { inBreak := b } none).trunk 0).receiver.inBreak = b ∧
        ((trunkIn { state := st } { inBreak := b } none).trunk 0).bringUp.state = st ∧
        OnTrunk (trunkIn { state := st } { inBreak := b } none) 0 0 := by
  refine fun st hs b hb => ⟨?_, ?_, 1, ?_⟩ <;> revert st b <;> decide +kernel

/-- The sample that makes a break start may be a lone one at MARK: it stays the last sample (R155). A step that a sender presents
leaves the filter at its own level (log entry 24). -/
theorem test_break_keeps_last_sample :
    let r : Receiver := { accepted := .space, lastSample := .space, run := 255 }
    (r.breakEvent 0 = [.breakStart 0] ∧ r.sampled.lastSample = .mark ∧ r.sampled.run = 256) ∧
      (((trunkIn { } r.sampled none).breakStart 0).trunk 0).receiver = { r.sampled with inBreak := true } ∧
      (((trunkIn { } { } none).breakStart 0).trunk 0).receiver =
        { accepted := .space, lastSample := .space, run := 256, inBreak := true } := by
  decide +kernel

/-- Each alignment of the clauses, with both lock counts; the estimates at both ends of what a unit may measure, and just
past them. -/
theorem witness_MeasurementThenThreePairs :
    (∀ a ∈ [Machine.Alignment.measuring, .seeking, .locking, .off], ∀ n ∈ [1, 2],
      ((trunkIn { } { alignment := a, lock := some ⟨n, 6⟩ } none).trunk 0).receiver.alignment = a ∧
        ((trunkIn { } { alignment := a, lock := some ⟨n, 6⟩ } none).trunk 0).receiver.lock = some ⟨n, 6⟩) ∧
      14 ≤ 14 ∧ 18 ≤ 18 ∧ 13 < 14 ∧ 18 < 19 := by
  decide +kernel

/-- A receiver at each kind of reference; a HALT, a symbol that is not FRAME, and a code error. -/
theorem witness_SymbolReadByItsRole :
    (∀ a ∈ [Machine.Alignment.framed, .data], ∀ f ∈ [refAt .bringUp 5, refAt .pending 0, refAt .data 0, refAt .bringUp 1,
        refAt .bringUp 4],
      ((trunkIn { state := .up } { alignment := a, ref := some f } none).trunk 0).receiver.ref = some f ∧
        ((trunkIn { state := .up } { alignment := a, ref := some f } none).trunk 0).receiver.alignment = a ∧
        ((trunkIn { state := .up } { alignment := a, ref := some f } none).trunk 0).receiver.switchWindow = 0 ∧
        (trunkIn { state := .up } { alignment := a, ref := some f } none).slotDesk 0 1 = some 0 ∧
        (trunkIn { state := .up } { alignment := a, ref := some f } none).slotCount 0 = 1) ∧
      (refAt .bringUp 5).accepted = true ∧ markCount 0b1111000 = 4 ∧ (0b1111000 : Pattern) ≠ 0b1110010 ∧
      markCount 0b1111001 ≠ 4 := by
  decide +kernel

/-- A data frame of one slot where the next may start, at either spacing, and where it may not; the last position of each
kind; a miss and none before it; a pending start after another, the switch window closed and open; a frame whose slots are
read and one whose are not; and the word symbols that withhold the word. -/
theorem witness_SymbolReadByItsRole_clauses :
    (∀ a ∈ [Machine.Alignment.framed, .data], ∀ f ∈ [refAt .data 1, refAt .data 5, { refAt .pending 0 with afterBringUp := true },
        { refAt .pending 0 with slotsRead := true }, { refAt .data 0 with slotsRead := false }], ∀ m ∈ [0, 1], ∀ w ∈ [0, 1],
      ((trunkIn { state := .up } { alignment := a, ref := some f, missCount := m, switchWindow := w } none).trunk
          0).receiver = { alignment := a, ref := some f, missCount := m, switchWindow := w } ∧
        ((trunkIn { state := .up } { alignment := a, ref := some f, missCount := m, switchWindow := w } none).trunk
          0).bringUp.state = .up) ∧
      MayStart 1 False .data 2 ∧ MayStart 1 True .data 6 ∧ ¬ MayStart 1 False .data 6 ∧ MayStart 1 True .bringUp 6 ∧
      (∀ x, MayStart 1 False .data x → x ≤ 2) ∧ (∀ x, MayStart 1 True .data x → x ≤ 6) ∧
      (∀ x, MayStart 1 True .bringUp x → x ≤ 6) ∧
      BothSpacings { alignment := .data, switchWindow := 1 } ∧ ¬ BothSpacings { alignment := .data } ∧
      BothSpacings { alignment := .framed } ∧ markCount 0b1110100 = 4 ∧
      ∀ p ∈ [(0b1110010 : Pattern), 0b1110100, 0b1111000], p = 0b1110010 ∨ p = 0b1110100 ∨ p = 0b1111000 := by
  refine ⟨by decide +kernel, Or.inl rfl, Or.inr ⟨trivial, rfl⟩, ?_, rfl, ?_, ?_, ?_, Or.inr ⟨rfl, Nat.one_pos⟩, ?_,
    Or.inl rfl, by decide +kernel, by decide⟩
  · rintro (h | h)
    · exact absurd h (by decide)
    · exact h.1
  · rintro x (h | h)
    · exact Nat.le_of_eq h
    · exact absurd h.1 id
  · rintro x (h | h)
    · exact Nat.le_trans (Nat.le_of_eq h) (by decide)
    · exact Nat.le_of_eq h.2
  · exact fun x h => Nat.le_of_eq h
  · rintro (h | h)
    · cases h
    · exact absurd h.2 (Nat.lt_irrefl 0)

/-- Trunk 0 of one slot in a state and an alignment, after a word received a number of times. -/
def wordsTaken (st : TrunkState) (w : BringUpWord) (n : Nat) : State :=
  trunkIn { state := st, received := some ⟨w, n⟩ } { alignment := .framed } none

/-- A compatible BASE word with ack, one without, and an incompatible one, each for the third time; the first word of all;
and words not taken. -/
theorem witness_BringUpWordsCountedAndExamined :
    (∀ st ∈ [TrunkState.search, .confirm, .settle],
      ((wordsTaken st (makeWord 1 true true 0x1020) 2).trunk 0).bringUp.state = st ∧
        ((wordsTaken st (makeWord 1 true true 0x1020) 2).trunk 0).receiver.alignment = .framed ∧
        ((wordsTaken st (makeWord 1 true true 0x1020) 2).trunk 0).receiver.inBreak = false ∧
        ((wordsTaken st (makeWord 1 true true 0x1020) 2).trunk 0).bringUp.received =
          some ⟨makeWord 1 true true 0x1020, 2⟩ ∧
        (wordsTaken st (makeWord 1 true true 0x1020) 2).compatible 0 (makeWord 1 true true 0x1020) = true ∧
        (wordsTaken st (makeWord 1 true true 0x1020) 2).compatible 0 (makeWord 1 true true 0x2020) = false) ∧
      wordKind (makeWord 1 true true 0x1020) = .base ∧ wordKind (makeWord 1 true true 0x2020) = .base ∧
      wordKind (makeWord 1 false true 0x1020) = .base ∧ (makeWord 1 true true 0x1020).getLsbD 17 = true ∧
      (makeWord 1 false true 0x1020).getLsbD 17 = false ∧ wordKind (makeWord 2 true false 0x1180) = .page ∧
      min 3 (2 + 1) = 3 ∧ wordKind (makeWord 3 true false 0) = .ignored ∧
      ((trunkIn { state := .search } { alignment := .framed } none).trunk 0).bringUp.received = none := by
  decide +kernel

/-- Trunk 0 of two slots, for desks 1 and 2, in MAP at a page, after a word received twice. -/
def mapAt (k : Nat) (seen : Bool) (w : BringUpWord) : State :=
  { trunkIn { state := .map, page := some ⟨k, seen⟩, received := some ⟨w, 2⟩ } { alignment := .framed } none with
    setup := [(0xC0, 1), (0xC1, 2), (0xD0, 2)] }

/-- Both pages, seen and not; a PAGE word of each slot 0 to 3, its desk right and wrong, with ack and without; the other
words, in CONFIRM and SETTLE too. -/
theorem witness_BringUpWordsCountedAndExamined_pages :
    (∀ k ∈ [1, 2], ∀ seen ∈ [true, false], ∀ content ∈ [0x0080, 0x1080, 0x1100, 0x2100, 0x3080],
      ((mapAt k seen (makeWord 2 true false content)).trunk 0).bringUp.state = .map ∧
        ((mapAt k seen (makeWord 2 true false content)).trunk 0).bringUp.page = some ⟨k, seen⟩ ∧
        ((mapAt k seen (makeWord 2 true false content)).trunk 0).receiver.alignment = .framed ∧
        ((mapAt k seen (makeWord 2 true false content)).trunk 0).receiver.inBreak = false ∧
        ((mapAt k seen (makeWord 2 true false content)).trunk 0).bringUp.received =
          some ⟨makeWord 2 true false content, 2⟩ ∧
        (mapAt k seen (makeWord 2 true false content)).slotCount 0 = 2 ∧
        wordKind (makeWord 2 true false content) = .page ∧ wordKind (makeWord 2 false false content) = .page ∧
        (makeWord 2 true false content).toNat / 2 ^ 12 % 16 = content / 2 ^ 12) ∧
      (mapAt 1 false 0).slotNumber 0 1 = 1 ∧ (makeWord 2 true false 0x1080).toNat / 2 ^ 7 % 32 = 1 ∧
      (makeWord 2 true false 0x1100).toNat / 2 ^ 7 % 32 = 2 ∧ wordKind (makeWord 0 true false 0) = .null ∧
      wordKind (makeWord 0 false false 0) = .null ∧ (makeWord 0 false false 0).getLsbD 17 = false ∧
      ∀ st ∈ [TrunkState.confirm, .settle], ((wordsTaken st (makeWord 0 true false 0) 2).trunk 0).bringUp.state = st := by
  decide +kernel

/-- A pending start whose slot 1 is spare, its slots read and not; and symbols read for code errors only: in a data frame
accepted in FRAMED, after a missing frame, and at the first of two frame positions. -/
theorem witness_SymbolReadByItsRole_plain :
    (∀ b ∈ [true, false],
      (({ trunkIn { state := .up } { alignment := .data, ref := some { refAt .pending 0 with slotsRead := b } } none with
          setup := [(0xD0, 1)] } : State).trunk 0).receiver.ref = some { refAt .pending 0 with slotsRead := b } ∧
        (refAt .pending 0).accepted = true) ∧
      ({ trunkIn { state := .up } { alignment := .data } none with setup := [(0xD0, 1)] } : State).slotDesk 0 1 = none ∧
      ReadPlainly { alignment := .framed } (refAt .data 0) 1 1 0b1110100 ∧
      ReadPlainly { alignment := .data } (missedRef 1 (refAt .data 1)) 1 1 0b1111001 ∧
      ReadPlainly { alignment := .framed } (refAt .data 1) 1 2 0b1110100 := by
  refine ⟨by decide +kernel, by decide +kernel, ⟨by decide, ?_, by decide, by decide⟩,
    ⟨by decide, ?_, by decide, by decide⟩, ⟨by decide, fun _ => ⟨by decide, 6, ?_, by decide⟩, by decide, by decide⟩⟩
  · rintro (h | h)
    · exact absurd h (by decide)
    · exact absurd h.2 (by decide)
  · rintro (h | h)
    · exact absurd h (by decide)
    · exact absurd h.2 (by decide)
  · exact Or.inr ⟨Or.inl rfl, rfl⟩

/-- In SETTLE, FRAMED and SEEKING, with LINE at the trunk's desk and without it; and timers that do not run. -/
theorem witness_LinkAndLimitTimersExpire :
    (∀ a ∈ [Machine.Alignment.framed, .seeking], ∀ l ∈ [true, false], ∀ t ∈ [none, some 0],
      ∃ s : State, (s.trunk 0).bringUp.state = .settle ∧ (s.trunk 0).bringUp.linkTimer = t ∧
        (s.trunk 0).bringUp.limitTimer = t ∧ (s.trunk 0).receiver.alignment = a ∧ (s.trunk 0).receiver.inBreak = false ∧
        OnTrunk s 0 0 ∧ (∀ d, (s.desk d).line = (l && decide (d = 0))) ∧ (s.desk 0).context = none) := by
  refine fun a ha l hl t ht =>
    ⟨(trunkIn { state := .settle, linkTimer := t, limitTimer := t } { alignment := a } none).onDesk 0 fun k =>
      { k with line := l }, ?_, ?_, ?_, ?_, ?_, ⟨1, ?_⟩, ?_, ?_⟩ <;> revert a l t <;> decide +kernel

/-- Desk 1 under LINE with a current item, the trunk in SETTLE and FRAMED: the item in its text goes on after the RESTORED
notice is left out, and an item in a notice that ends it ends, when its phrase is empty too. -/
theorem witness_LinkAndLimitTimersExpire_restore :
    (∀ seg ∈ [Segment.text, .notice .kill 0 .finish],
      (((trunkIn { state := .settle, linkTimer := some 0 } { alignment := .framed } none).onDesk 0 fun k =>
          { k with line := true, context := some (sending seg []) }).desk 0).context = some (sending seg []) ∧
        (((trunkIn { state := .settle, linkTimer := some 0 } { alignment := .framed } none).onDesk 0 fun k =>
          { k with line := true, context := some (sending seg []) }).desk 0).line = true ∧
        ((trunkIn { state := .settle, linkTimer := some 0 } { alignment := .framed } none).trunk 0).receiver.alignment =
          .framed ∧
        ∀ e, e ≠ 0 → ((trunkIn { state := .settle, linkTimer := some 0 } { alignment := .framed } none).desk e).line =
          false) ∧
      goesOn inText 0 (sending .text []) (.notice .restored 0 (restartOf (sending .text [])))
        (atText inText 0 (sending .text []) 0 false) ∧
      endsAt inText (.notice .restored 0 (restartOf (sending (.notice .kill 0 .finish) []))) := by
  have e : LeftOut inText .restored := ⟨by decide +kernel, by decide⟩
  refine ⟨by decide +kernel, ⟨fun _ => rfl, fun h => absurd e h⟩, e, ⟨by decide +kernel, by decide⟩, trivial⟩

/-- Trunk 0 of two slots, for desks 1 and 2, both under LINE with a current item. -/
def bothRestored : State :=
  ([0, 1] : List DeskId).foldl (fun s d => s.onDesk d fun k => { k with line := true, context := some (sending .header []) })
    { trunkIn { state := .settle, linkTimer := some 0 } { alignment := .framed } none with
      setup := [(0xC0, 1), (0xC1, 2), (0xD0, 2)] }

/-- Two items to restore, at desks in slot order. -/
theorem witness_LinkAndLimitTimersExpire_both :
    (bothRestored.trunk 0).bringUp.state = .settle ∧ (bothRestored.trunk 0).bringUp.linkTimer ≠ none ∧
      (bothRestored.trunk 0).receiver.alignment = .framed ∧ desksInOrder bothRestored 0 = [0, 1] ∧
      ∀ d ∈ ([0, 1] : List DeskId), (bothRestored.desk d).line = true ∧ (bothRestored.desk d).context.isSome := by
  decide +kernel

/-! ### Witnesses: the invariants -/

theorem witness_CompletionQueueKept : Safety.CompletionQueue State.reset ∧ ∃ t, step State.reset = .next t := by
  refine ⟨?_, ⟨_, rfl⟩⟩
  unfold Safety.CompletionQueue
  decide +kernel

theorem witness_CompletionQueueKept_fetch : inText.fetchLimit = 4 ∧
    ∃ s t : State, exec .fetchReadGrant s = .next t ∧ s.fetchLimit ≤ s.fetchEntries := by
  refine ⟨by decide +kernel, { inText with entries := List.replicate 4 (waitingFor (.fetch 0 0) .read) }, _, rfl, ?_⟩
  decide +kernel

theorem witness_SetupCanonicalKept : Safety.Setup State.reset ∧ ∃ t, step State.reset = .next t :=
  ⟨by unfold Safety.Setup; decide +kernel, ⟨_, rfl⟩⟩

theorem witness_LimitsKept :
    (∀ d, Safety.DeskOk (State.reset.desk d)) ∧ (∀ u, Safety.TrunkOk (State.reset.trunk u)) ∧
      Safety.ControlFifo State.reset ∧ Safety.ReportQueue State.reset ∧ Safety.Minute State.reset ∧
      ∃ t, step State.reset = .next t := by
  unfold Safety.DeskOk Safety.TrunkOk Safety.ControlFifo Safety.ReportQueue Safety.Minute
  exact ⟨by decide +kernel, by decide +kernel, by decide +kernel, by decide +kernel, by decide +kernel, ⟨_, rfl⟩⟩

end Sys2Proof.Tests
end

