-- ==== Sys2Proof/Proofs/Commands.lean ====
section
/-!
PROOFS. What carrying out the command at the head of the control FIFO gives (R24, R32), said once for all commands of Table
2-10: the item's rest after the command's effect, or after its refusal for the mode or for a later check.
-/

namespace Sys2Proof.Machine

open Sys2Proof.Claims

/-! ### The item at the head -/

/-- Only an end of a FIFO_FULL hold tells `leaveFifo` from the FIFO's tail (R12, R24). -/
theorem leaveFifo_acts (more : List Action) (t : State) : (more.foldl State.act t).leaveFifo = itemDone more t := by
  unfold State.leaveFifo itemDone
  generalize more.foldl State.act t = u
  rcases e : u.hold with _ | ⟨cause, _, _⟩
  · simp only [e]
  · cases cause
    case fifoFull =>
      simp only [e]
      rfl
    all_goals simp only [e]

theorem carryOut_head {s : State} {a : Action} {more : List Action} {mine : Action → Bool} (hd : Head s a more)
    (hm : mine a = true) : s.carryOut mine = itemDone more (s.act a) := by
  obtain ⟨rest, e⟩ := List.head?_eq_some_iff.mp hd
  unfold State.carryOut
  rw [e]
  simp only [hm, if_true]
  exact leaveFifo_acts more (s.act a)

/-! ### Commands -/

theorem commandKind_codeOf (k : CommandKind) : commandKind (codeOf k) = some k := by
  cases k <;> rfl

theorem acceptedIn_eq_accepted (k : CommandKind) (m : Mode) : k.acceptedIn m = accepted k m := by
  cases k <;> rfl

theorem namesStory_eq_ofStory (k : CommandKind) : namesStory (some k) = ofStory k := by
  cases k <;> rfl

theorem exec_stepOf (k : CommandKind) (s : State) :
    exec (stepOf k) s = .next (s.carryOut (Action.isCommand (some k))) := by
  cases k <;> rfl

section

variable {s : State} {w : CommandWord} {k : CommandKind} (code : w.code = codeOf k)
include code

theorem exec_command {more : List Action} (hd : Head s (.command w) more) :
    exec (stepOf k) s = .next (itemDone more (s.command w)) := by
  have mine : Action.isCommand (some k) (.command w) = true := by
    simp [Action.isCommand, code, commandKind_codeOf]
  rw [exec_stepOf, carryOut_head hd mine]
  rfl

theorem refuseCommand_eq (reason : CommandReason) :
    s.refuseCommand w reason = s.report (refusal s w (byteOf reason.code) (ofStory k)) := by
  unfold State.refuseCommand
  rw [code, commandKind_codeOf, namesStory_eq_ofStory, ← code]
  rfl

theorem command_wrongMode (no : accepted k s.mode = false) : s.command w = s.report (refusal s w 1 (ofStory k)) := by
  unfold State.command
  simp only [code, commandKind_codeOf, acceptedIn_eq_accepted, no]
  exact refuseCommand_eq code .wrongMode

theorem command_ok {t : State} (yes : accepted k s.mode = true) (ok : s.perform k w = .ok t) : s.command w = t := by
  unfold State.command
  simp only [code, commandKind_codeOf, acceptedIn_eq_accepted, yes, if_true, ok]

end

end Sys2Proof.Machine
end

