-- ==== Sys2Proof/Proofs/Go.lean ====
section
/-!
PROOFS. GO (R30): it sets RUN in CONFIGURE, is refused in RUN, and the mode stands in byte 3 of the general image (R193).
-/

namespace Sys2Proof.Machine

open Sys2Proof.Claims

theorem command_go_of_configure {s : State} {w : CommandWord} (code : w.code = codeOf .go) (m : s.mode = .configure) :
    s.command w = { s with mode := .run } :=
  command_ok code (by rw [m]; rfl) rfl

theorem command_go_of_run {s : State} {w : CommandWord} (code : w.code = codeOf .go) (m : s.mode = .run) :
    s.command w = s.report (refusal s w 1 false) :=
  command_wrongMode code (by rw [m]; rfl)

theorem image_general_mode (s : State) : (s.image 0)[3]? = some (if s.mode = .run then 1 else 0) := by
  unfold State.image State.generalImage State.generalPart
  cases s.mode <;> rfl

/-- Settles O28: GO is a command of Table 2-10 accepted in CONFIGURE only, and its one effect is the mode. -/
theorem goSetsRun : Obligations.GoSetsRun := by
  intro s w more hd code
  have carried : exec .go s = .next (itemDone more (s.command w)) := exec_command (k := .go) code hd
  refine ⟨fun m => ?_, fun m => ?_, image_general_mode s⟩
  · rw [carried, command_go_of_configure code m]
  · rw [carried, command_go_of_run code m]

end Sys2Proof.Machine
end

