-- ==== Sys2Proof/Proofs/LineCode.lean ====
section
/-!
PROOFS. The line code (R142): the table of valid patterns, the pattern index of each of its places, why two symbols in a row
hold no seven spaces, and the order in which the units of a symbol are sent.
-/

namespace Sys2Proof.Machine

/-! ### The table of patterns -/

theorem patterns_length : patterns.length = 35 := rfl

theorem mem_patterns_iff (p : Pattern) : p ∈ patterns ↔ markCount p = 4 := by
  revert p
  decide

theorem patterns_ascending : patterns.Pairwise (· < ·) := by
  decide

theorem patterns_nodup : patterns.Nodup :=
  patterns_ascending.imp BitVec.ne_of_lt

/-! ### The pattern index -/

/-- No pattern stands twice in the table, so the first place of a pattern is the only one. -/
theorem patternIndex_getElem {i : Nat} (h : i < patterns.length) : patternIndex patterns[i] = some i := by
  unfold patternIndex
  refine List.findIdx?_eq_some_iff_getElem.mpr ⟨h, decide_eq_true rfl, fun j lt => ?_⟩
  have differ : patterns[j] ≠ patterns[i] := fun e => lt.ne (patterns_nodup.getElem_inj_iff.mp e)
  simpa using differ

theorem fiveUnit_lt_patterns_length (c : FiveUnit) : c.toNat < patterns.length :=
  c.isLt.trans (by decide)

theorem codePattern_eq_getElem (c : FiveUnit) : codePattern c = patterns[c.toNat]'(fiveUnit_lt_patterns_length c) := by
  unfold codePattern
  rw [List.getElem?_eq_getElem (fiveUnit_lt_patterns_length c)]
  rfl

theorem getElem?_patterns_eq_codePattern (c : FiveUnit) : patterns[c.toNat]? = some (codePattern c) := by
  rw [codePattern_eq_getElem]
  exact List.getElem?_eq_getElem _

theorem patternIndex_codePattern (c : FiveUnit) : patternIndex (codePattern c) = some c.toNat := by
  rw [codePattern_eq_getElem]
  exact patternIndex_getElem _

/-! ### Runs of space -/

/-- Four marks do not fit in the three units outside of four successive ones. -/
theorem exists_mark_of_four_units {p : Pattern} (valid : markCount p = 4) {k : Nat} (hk : k ≤ 3) :
    ∃ j, k ≤ j ∧ j < k + 4 ∧ p.getLsbD j = true := by
  by_contra! spaces
  have outside : ∀ j ∈ List.range 7, p.getLsbD j = true → decide (j < k ∨ k + 4 ≤ j) = true := by
    intro j _ mark
    refine decide_eq_true (by_contra fun inside => ?_)
    exact spaces j (by omega) (by omega) mark
  have three : ∀ m ≤ 3, (List.range 7).countP (fun j => decide (j < m ∨ m + 4 ≤ j)) = 3 := by
    decide
  have few : markCount p ≤ 3 := calc
    markCount p = (List.range 7).countP fun j => p.getLsbD j := List.countP_eq_length_filter.symm
    _ ≤ (List.range 7).countP fun j => decide (j < k ∨ k + 4 ≤ j) := List.countP_mono_left outside
    _ = 3 := three k hk
  omega

theorem extractLsb'_ne_zero_of_mark {n i len j : Nat} {x : BitVec n} (from_le : i ≤ j) (lt : j < i + len)
    (mark : x.getLsbD j = true) : x.extractLsb' i len ≠ 0 := by
  intro zero
  have bit : (x.extractLsb' i len).getLsbD (j - i) = true := by
    rw [BitVec.getLsbD_extractLsb', Nat.add_sub_cancel' from_le, mark]
    simp
    omega
  simp [zero] at bit

/-- Seven units in a row out of two symbols hold the first four of the later symbol or the last four of the earlier one. -/
theorem window_of_valid_ne_zero {p q : Pattern} (hp : markCount p = 4) (hq : markCount q = 4) {i : Nat} (hi : i ≤ 7) :
    (p ++ q : BitVec 14).extractLsb' i 7 ≠ 0 := by
  rcases le_or_gt i 3 with low | high
  · obtain ⟨j, le, lt, mark⟩ := exists_mark_of_four_units hq (k := 3) (le_refl 3)
    refine extractLsb'_ne_zero_of_mark (j := j) (by omega) (by omega) ?_
    rw [BitVec.getLsbD_append, if_pos (by omega), mark]
  · obtain ⟨j, -, lt, mark⟩ := exists_mark_of_four_units hp (k := 0) (Nat.zero_le 3)
    refine extractLsb'_ne_zero_of_mark (j := 7 + j) (by omega) (by omega) ?_
    rw [BitVec.getLsbD_append, if_neg (by omega), Nat.add_sub_cancel_left, mark]

/-! ### The order of the units -/

theorem txd_of_framing {s : State} {u : TrunkId} {f : Framing} (h : (s.trunk u).transmitter = some f) :
    s.txd u = if f.pattern.getLsbD (7 - f.unit) then .mark else .space := by
  unfold State.txd
  rw [h]

/-- Settles O49: the table is sorted, so a pattern's index is its place, and no seven spaces in a row occur because any four
successive units of a valid symbol hold a mark. -/
theorem lineCodeFourOfSeven : Obligations.LineCodeFourOfSeven := by
  have numbered (c : FiveUnit) :
      patterns[c.toNat]? = some (codePattern c) ∧ patternIndex (codePattern c) = some c.toNat :=
    ⟨getElem?_patterns_eq_codePattern c, patternIndex_codePattern c⟩
  refine ⟨patterns_length, mem_patterns_iff, patterns_ascending, numbered, rfl, rfl, rfl, ?spaceRun, ?unitOrder⟩
  case spaceRun =>
    intro p hp q hq i hi
    exact window_of_valid_ne_zero ((mem_patterns_iff p).mp hp) ((mem_patterns_iff q).mp hq) hi
  case unitOrder =>
    intro s u f sending _ _
    exact txd_of_framing sending

end Sys2Proof.Machine
end

