-- ==== Sys2Proof/Proofs/ReportQueue.lean ====
section
/-!
PROOFS. The pending report queue (R189): what a record's line becomes, when a record joins the queue and when it is lost, and
what a grant of a report write takes from the queue.
-/

namespace Sys2Proof.Machine

/-! ### The line of a kind -/

/-- The kinds that ALERT does not serve are those that NOTICE serves (Table 11-3). -/
theorem not_isAlert_eq (k : ReportKind) : (!k.isAlert) = decide (k.code ≤ 10) := by
  unfold ReportKind.isAlert
  rw [← decide_not, decide_eq_decide]
  omega

/-- A pending flag never falls here: it stays as it is, or rises for an enabled kind of its class (R192). -/
theorem setLine_eq (s : State) (k : ReportKind) :
    s.setLine k = s.onWriter fun w => { w with
      alert := w.alert || (s.kindEnabled k && k.isAlert)
      notice := w.notice || (s.kindEnabled k && !k.isAlert) } := by
  unfold State.setLine
  cases s.kindEnabled k
  case false => simp [State.onWriter]
  case true => cases k.isAlert <;> simp [State.onWriter]

/-! ### Joining and losing -/

theorem report_of_room {s : State} (r : Record) (room : s.writer.queue.length < 16) (ring : s.ringCode ≠ 0) :
    s.report r = s.onWriter fun w => { w with queue := w.queue ++ [r] } :=
  if_pos ⟨room, ring⟩

theorem report_of_no_room {s : State} (r : Record) (noRoom : 16 ≤ s.writer.queue.length ∨ s.ringCode = 0) :
    s.report r = (s.onWriter fun w => { w with missed := raise255 w.missed }).setLine r.kind :=
  if_neg fun ⟨room, ring⟩ => noRoom.elim (Nat.not_le_of_lt room) ring

/-! ### The grant of a report write -/

/-- A grant takes the record at the head; one that is not made, as with a full ring, takes none. -/
theorem queue_grantRecord (s : State) :
    s.grantRecord.writer.queue =
      if s.grantsWriter ∧ s.offersRecord then s.writer.queue.tail else s.writer.queue := by
  unfold State.grantRecord
  split
  case isFalse => rfl
  case isTrue =>
    split
    next empty => simp [empty]
    next r more pending => simp [pending, State.issueOwn]

/-- Settles O40: the room test of `State.report` decides between joining and losing, and a grant leaves the queue's tail or
the whole queue. -/
theorem reportJoinsOrIsLost : Obligations.ReportJoinsOrIsLost := by
  refine ⟨fun s r room ring => ?joins, fun s r noRoom => ?lost, fun s t r more pending granted => ?granted⟩
  case joins => exact report_of_room r room ring
  case lost =>
    rw [report_of_no_room r noRoom, setLine_eq, not_isAlert_eq]
    rfl
  case granted =>
    obtain rfl : s.grantRecord = t := Host.Outcome.next.inj granted
    rw [queue_grantRecord, pending]
    split
    case isTrue => exact .inr rfl
    case isFalse => exact .inl rfl

end Sys2Proof.Machine
end

section
/-!
PROOFS. A report touches the report writer alone: what it leaves of every other field.
-/

namespace Sys2Proof.Machine

/-! ### A report is a change of the report writer -/

/-- The report writer once a record has been reported: the record joined, or lost with its line set (R189, R192). -/
def State.writerAfterReport (s : State) (r : Record) (w : ReportWriter) : ReportWriter :=
  if s.writer.queue.length < 16 ∧ s.ringCode ≠ 0 then { w with queue := w.queue ++ [r] }
  else
    { w with
      missed := raise255 w.missed
      alert := w.alert || (s.kindEnabled r.kind && r.kind.isAlert)
      notice := w.notice || (s.kindEnabled r.kind && !r.kind.isAlert) }

theorem report_eq_onWriter (s : State) (r : Record) : s.report r = s.onWriter (s.writerAfterReport r) := by
  unfold State.report State.writerAfterReport
  split
  · rfl
  · rw [setLine_eq]
    rfl

variable (s : State) (r : Record)

@[simp] theorem report_mode : (s.report r).mode = s.mode := by simp [report_eq_onWriter]
@[simp] theorem report_straps : (s.report r).straps = s.straps := by simp [report_eq_onWriter]
@[simp] theorem report_setup : (s.report r).setup = s.setup := by simp [report_eq_onWriter]
@[simp] theorem report_stage : (s.report r).stage = s.stage := by simp [report_eq_onWriter]
@[simp] theorem report_fifo : (s.report r).fifo = s.fifo := by simp [report_eq_onWriter]
@[simp] theorem report_entries : (s.report r).entries = s.entries := by simp [report_eq_onWriter]
@[simp] theorem report_port : (s.report r).port = s.port := by simp [report_eq_onWriter]
@[simp] theorem report_hold : (s.report r).hold = s.hold := by simp [report_eq_onWriter]
@[simp] theorem report_windows : (s.report r).windows = s.windows := by simp [report_eq_onWriter]
@[simp] theorem report_stories : (s.report r).stories = s.stories := by simp [report_eq_onWriter]
@[simp] theorem report_completion : (s.report r).completion = s.completion := by simp [report_eq_onWriter]
@[simp] theorem report_desks : (s.report r).desks = s.desks := by simp [report_eq_onWriter]
@[simp] theorem report_trunks : (s.report r).trunks = s.trunks := by simp [report_eq_onWriter]
@[simp] theorem report_clock : (s.report r).clock = s.clock := by simp [report_eq_onWriter]

@[simp] theorem story_report (h : HandleId) : (s.report r).story h = s.story h := by simp [report_eq_onWriter]
@[simp] theorem window_report (w : WindowId) : (s.report r).window w = s.window w := by simp [report_eq_onWriter]
@[simp] theorem trunk_report (t : TrunkId) : (s.report r).trunk t = s.trunk t := by simp [report_eq_onWriter]

end Sys2Proof.Machine
end

section
/-!
PROOFS. What taking a request and the end of a hold can do to the state, said once: a property that their few primitive
changes keep is kept by both (R3, R12). For the completion queue the room at a grant is part of it: a request is taken only
without a hold and with fewer than 8 UPSTREAM entries.
-/

namespace Sys2Proof.Machine

open Sys2Proof.Safety

/-- A property together with what a grant of the upstream side tells of the state (R3). -/
def Granted (P : State → Prop) (s : State) : Prop := P s ∧ s.hold = none ∧ s.upstreamEntries < 8

theorem stable_granted {lim : Prop} {P : State → Prop} (hP : Stable lim P) : Stable lim (Granted P) where
  desk := fun h => hP.desk h.1
  trunk := fun h => hP.trunk h.1
  onStory := fun n f h => ⟨hP.onStory n f h.1, h.2⟩
  onWindow := fun w f h => ⟨hP.onWindow w f h.1, h.2⟩
  completion := fun l h => ⟨hP.completion l h.1, h.2⟩
  clearHold := fun h => ⟨hP.clearHold h.1, rfl, h.2.2⟩
  onDesk := fun d f h k => ⟨hP.onDesk d f h.1 k, h.2⟩
  onTrunk := fun t f h k => ⟨hP.onTrunk t f h.1 k, h.2⟩
  report := fun {s} r h => ⟨hP.report r h.1, (report_hold s r).trans h.2.1, by
    unfold State.upstreamEntries
    rw [report_entries]
    exact h.2.2⟩

/-- A property that the primitive changes of the store path keep. -/
structure KeptByStore (lim : Prop) (P : State → Prop) : Prop where
  stable : Stable lim P
  port : ∀ {s : State} p, P s → P { s with port := p }
  ownWait : ∀ {s : State} n, P s → P { s with ownWait := n }
  downBus : ∀ {s : State} b, P s → P { s with downBus := b }
  upBus : ∀ {s : State} b, P s → P { s with upBus := b }
  joins : ∀ {s : State} access isLocal result, Granted P s →
    P { s with entries := s.entries ++ [{ owner := .upstream, access := access, isLocal := isLocal, result := result }] }
  beginHold : ∀ {s : State} cause, Granted P s → P (s.beginHold cause)
  takeCopy : ∀ {s : State} x, (x.actions ≠ [] → s.fifo.length < fifoLimit) → P s → P (s.takeCopy x)

namespace KeptByStore

variable {lim : Prop} {P : State → Prop} (k : KeptByStore lim P) {s : State}
include k

theorem forward {r} (h : Granted P s) : P (s.forward r) := k.downBus _ (k.port _ (k.joins _ _ _ h))

theorem acceptLocal {r c} (h : Granted P s) : P (s.acceptLocal r c) := by
  unfold State.acceptLocal
  split
  · exact k.upBus (some c) (k.port none h.1)
  · exact k.port none (k.joins (accessOf r) true (some c) h)

theorem absorb {r} (h : Granted P s) : P (s.absorb r) := k.acceptLocal h

theorem takePageWrite {a beats} (h : Granted P s) : P (s.takePageWrite a beats) := by
  unfold State.takePageWrite
  dsimp only
  split
  · exact k.beginHold _ h
  next room => exact k.takeCopy _ (fun some => Nat.lt_of_not_le fun full => room ⟨some, full⟩) (k.forward h)

theorem takeWindowWrite {w a beats} (h : Granted P s) : P (s.takeWindowWrite w a beats) := by
  unfold State.takeWindowWrite
  split
  next taken => exact k.stable.testRooms (k.stable.testFlags (k.forward ((stable_granted k.stable).intakeWrite h taken)))
  next => exact k.beginHold _ h

theorem takeWrite {a beats bytes} (h : Granted P s) : P (s.takeWrite a beats bytes) := by
  unfold State.takeWrite
  split
  · exact k.stable.protectWrite (k.absorb h)
  · split
    · exact k.takePageWrite h
    · split
      · exact k.takeWindowWrite h
      · exact k.forward h

theorem classify {r} (h : Granted P s) : P (s.classify r) := by
  unfold State.classify
  split
  · split
    · exact k.forward h
    · split
      · exact k.forward h
      · exact k.takeWrite h
  · exact k.acceptLocal h

theorem countWait (h : Granted P s) : Granted P s.countWait := by
  unfold State.countWait
  split
  · exact ⟨k.ownWait _ h.1, h.2⟩
  · exact h

theorem takeGranted (h : Granted P s) : P s.takeGranted := by
  unfold State.takeGranted
  split
  · exact h.1
  · split
    · exact k.forward (k.countWait h)
    · exact k.classify (k.countWait h)

omit k in
theorem granted_of_grantsUpstream (h : P s) (g : s.grantsUpstream = true) : Granted P s := by
  unfold State.grantsUpstream State.upstreamReady at g
  simp only [Bool.and_eq_true, decide_eq_true_eq, Option.isNone_iff_eq_none] at g
  obtain ⟨⟨⟨-, noHold⟩, room⟩, -⟩ := g
  exact ⟨h, noHold, room⟩

theorem takeUpstream {r} (h : P s) : P (s.takeUpstream r) := by
  have presented : P (s.present r) := by
    unfold State.present
    split
    · exact h
    · exact k.port _ h
  unfold State.takeUpstream
  dsimp only
  split
  next g => exact k.takeGranted (granted_of_grantsUpstream presented g)
  next => exact presented

/-- In a hold the entry of its absorption has room, and the hold ends first (R12). -/
theorem holdExpiry (h : P s) (room : s.hold.isSome → s.upstreamEntries < 8) : P s.holdExpiry := by
  unfold State.holdExpiry
  split
  next x p held _ =>
    have ended : Granted P s.clearHold := ⟨k.stable.clearHold h, rfl, room (by rw [held]; rfl)⟩
    unfold State.expireHold
    dsimp only
    split
    · exact k.stable.reportPlain (k.port _ ended.1)
    · exact k.stable.testRooms (k.stable.expireRing (k.absorb ended))
    · exact k.stable.testRooms (k.stable.expireTable (k.absorb ended))
  next => exact h

end KeptByStore

end Sys2Proof.Machine
end

section
/-!
PROOFS. One period of LREF (log entry 8): what it makes of each trunk's receiver, timers and transmitter, of the hold timer and
of the MINUTE pin, and the steps it makes due. Each part of the model's period is a change of one trunk, so the trunks'
periods do not meet.
-/

namespace Sys2Proof.Machine

open Sys2Proof.Claims

/-! ### Changes of one receiver or bring-up controller -/

@[simp] theorem trunk_onReceiver (s : State) (t u : TrunkId) (f : Receiver → Receiver) :
    (s.onReceiver t f).trunk u =
      if t = u then { s.trunk t with receiver := f (s.trunk t).receiver } else s.trunk u := trunk_onTrunk ..

@[simp] theorem trunk_onBringUp (s : State) (t u : TrunkId) (f : BringUp → BringUp) :
    (s.onBringUp t f).trunk u =
      if t = u then { s.trunk t with bringUp := f (s.trunk t).bringUp } else s.trunk u := trunk_onTrunk ..

theorem onReceiver_onReceiver (s : State) (t : TrunkId) (f g : Receiver → Receiver) :
    (s.onReceiver t f).onReceiver t g = s.onReceiver t fun r => g (f r) := onTrunk_onTrunk ..

theorem onReceiver_congr {s : State} {t : TrunkId} {f g : Receiver → Receiver}
    (e : f (s.trunk t).receiver = g (s.trunk t).receiver) : s.onReceiver t f = s.onReceiver t g :=
  onTrunk_congr s (by rw [e])

theorem onReceiver_self {s : State} {t : TrunkId} {f : Receiver → Receiver}
    (e : f (s.trunk t).receiver = (s.trunk t).receiver) : s.onReceiver t f = s :=
  onTrunk_self s (by rw [e])

/-! ### Times -/

theorem unitPeriod_eq (rate : Nat) : Config.unitPeriod rate = unitTime rate := by
  rcases rate with _ | _ | _ | n <;> simp [Config.unitPeriod, unitTime]

theorem linkPeriod_eq (select : Nat) : Config.linkPeriod select = settlingTime select := by
  rcases select with _ | _ | _ | n <;> simp [Config.linkPeriod, settlingTime]

/-! ### The receiver -/

theorem isTransition_eq (r : Receiver) : r.isTransition = transits r := by
  unfold Receiver.isTransition transits
  rw [Bool.decide_and]

theorem measure_eq (r : Receiver) : r.measure = some (measured r) := by
  unfold Receiver.measure measured Receiver.runLength
  cases r.measurement <;> rfl

theorem position_eq_eight_iff {r : Receiver} (now : r.sampleTimer = 0) : r.position = 8 ↔ readsUnit r = true := by
  unfold Receiver.position readsUnit
  rw [isTransition_eq, now]
  cases transits r <;> simp

theorem append_unit_eq (u : BitVec 14) (a : Level) :
    (u ++ a.unit).truncate 14 = (u <<< 1) ||| (if a = .mark then 1 else 0) := by
  have bits (b : BitVec 1) : (u ++ b).truncate 14 = (u <<< 1) ||| b.zeroExtend 14 := by
    ext i hi
    rw [BitVec.truncate_eq_setWidth, BitVec.getElem_setWidth, BitVec.getLsbD_append]
    rcases i with _ | i
    · simp
    · simp only [Nat.succ_sub_one]
      simpa using BitVec.getLsbD_eq_getElem (x := u) (i := i) (by omega)
  rw [bits]
  cases a <;> rfl

/-- A receiver with its place in LOCKING moved on where a symbol has ended (R160). -/
def Receiver.moved (r : Receiver) : Receiver := if r.alignment = .locking ∧ r.unitCount = 0 then r.stepLock else r

theorem moveLock_eq (s : State) (t : TrunkId) : s.moveLock t = s.onReceiver t Receiver.moved := by
  unfold State.moveLock
  dsimp only
  split
  next h => exact onReceiver_congr (if_pos h).symm
  next h => exact (onReceiver_self (if_neg h)).symm

/-- A receiver after a sample, which reads a unit at position 8 (R155, R156). -/
def Receiver.afterSample (r : Receiver) : Receiver :=
  if r.position = 8 then r.sampled.takeUnit.moved else r.sampled

theorem sampleLine_fst (s : State) (t : TrunkId) :
    (s.sampleLine t).1 = s.onReceiver t Receiver.afterSample := by
  unfold State.sampleLine
  dsimp only
  split
  next h =>
    unfold State.readUnit
    dsimp only
    rw [moveLock_eq, onReceiver_onReceiver, onReceiver_onReceiver]
    exact onReceiver_congr (if_pos h).symm
  next h => exact onReceiver_congr (if_neg h).symm

theorem inSymbols_iff (r : Receiver) :
    inSymbols r = true ↔ r.alignment = .locking ∨ r.alignment = .framed ∨ r.alignment = .data := by
  simp [inSymbols, or_assoc]

theorem takeUnit_unitCount (r : Receiver) :
    r.takeUnit.unitCount = if inSymbols r then (r.unitCount + 1) % 7 else r.unitCount := by
  unfold Receiver.takeUnit inSymbols
  cases r.alignment <;> rfl

/-- A receiver that reads a unit, whose sample is no transition, after its sample. -/
theorem sampled_of_readsUnit {r : Receiver} (reads : readsUnit r = true) :
    r.sampled = { r with lastSample := r.rxd, run := min 256 (r.run + 1), retimer := r.retimer % 16 + 1 } := by
  have still : transits r = false := by
    unfold readsUnit at reads
    simp at reads
    exact reads.1.2
  unfold Receiver.sampled Receiver.position
  simp [isTransition_eq, still]

theorem takeUnit_sampled {r : Receiver} (reads : readsUnit r = true) :
    r.sampled.takeUnit =
      { r with
        lastSample := r.rxd, run := min 256 (r.run + 1), retimer := r.retimer % 16 + 1, units := unitsRead r
        unitCount := if inSymbols r then (r.unitCount + 1) % 7 else r.unitCount } := by
  rw [sampled_of_readsUnit reads]
  unfold Receiver.takeUnit unitsRead inSymbols
  rw [← append_unit_eq]
  cases r.alignment <;> rfl

theorem afterSample_eq {r : Receiver} (now : r.sampleTimer = 0) (rate : Nat) :
    { r.afterSample with sampleTimer := Config.samplePeriod rate - 1 } = receiverAfter rate r := by
  have period : Config.samplePeriod rate = unitTime rate / 16 := by rw [Config.samplePeriod, unitPeriod_eq]
  have afterNow : ¬ r.sampleTimer ≠ 0 := not_not.mpr now
  unfold Receiver.afterSample receiverAfter
  rw [period, if_neg afterNow]
  simp only [position_eq_eight_iff now]
  cases reads : readsUnit r
  case false =>
    unfold Receiver.sampled Receiver.position endsSymbol
    simp only [isTransition_eq, measure_eq, reads]
    cases transits r <;> simp
  case true =>
    have still : transits r = false := by
      unfold readsUnit at reads
      simp at reads
      exact reads.1.2
    simp only [if_true, takeUnit_sampled reads]
    unfold Receiver.moved Receiver.stepLock endsSymbol
    simp only [still, reads, inSymbols]
    by_cases locking : r.alignment = .locking
    · by_cases ends : (r.unitCount + 1) % 7 = 0 <;> simp [locking, ends]
    · simp [locking]

/-! ### The steps a sample makes due -/

theorem breakEvent_eq (r : Receiver) (u : TrunkId) :
    r.breakEvent u =
      (if !transits r && decide (r.run = 255) && decide (r.accepted = .space) && !r.inBreak then [.breakStart u] else []) ++
      (if !transits r && decide (r.run = 255) && decide (r.accepted = .mark) && r.inBreak then [.breakEnd u] else []) := by
  unfold Receiver.breakEvent
  rw [isTransition_eq]
  by_cases due : transits r = false ∧ r.run = 255
  · rw [if_pos due, due.1, due.2]
    cases r.accepted <;> cases r.inBreak <;> rfl
  · rw [if_neg due]
    cases t : transits r
    · have ne : r.run ≠ 255 := fun e => due ⟨t, e⟩
      simp [ne]
    · rfl

theorem measurementEvent_eq (r : Receiver) (u : TrunkId) :
    r.measurementEvent u =
      if transits r && decide (r.alignment = .measuring) && r.measurement.isSome && decide ((measured r).count = 64) then
        [.measurementComplete u (measured r).shortest]
      else [] := by
  unfold Receiver.measurementEvent
  rw [isTransition_eq, measure_eq]
  cases m : r.measurement
  case none => simp [measured, m]
  case some x =>
    cases transits r <;> by_cases c : r.alignment = .measuring <;> simp [c]

/-- Which step reads a symbol depends on the alignment, the frame reference, the switch window and the slot count only. -/
theorem symbolEvent_congr {s s' : State} {u : TrunkId} (setup : s'.setup = s.setup)
    (alignment : (s'.trunk u).receiver.alignment = (s.trunk u).receiver.alignment)
    (ref : (s'.trunk u).receiver.ref = (s.trunk u).receiver.ref)
    (window : (s'.trunk u).receiver.switchWindow = (s.trunk u).receiver.switchWindow) (sym : Pattern) :
    s'.symbolEvent u sym = s.symbolEvent u sym := by
  have role : s'.symbolRole u sym = s.symbolRole u sym := by
    unfold State.symbolRole Receiver.roleAt Receiver.expected Receiver.bothSpacings State.slotCount
    simp only [setup, alignment, ref, window]
  have slot (x : SymbolRole) : s'.isReturnSlot u x sym = s.isReturnSlot u x sym := by
    unfold State.isReturnSlot Receiver.readsSlots
    simp only [alignment, ref]
  unfold State.symbolEvent
  simp only [role, slot, ref]

theorem framePairUnits_eq : framePairUnits = 0b11100101110010 := by decide

/-- The steps of a symbol read in LOCKING (R160), by the receiver before its sample. -/
def lockDue (r : Receiver) (u : TrunkId) : List Instr :=
  match r.lock with
  | some l =>
    if endsSymbol r ∧ r.alignment = .locking ∧ l.offset = 5 ∧ (unitsRead r).truncate 7 ≠ 0b1110010#7 then
      [.framePairFound u false]
    else if endsSymbol r ∧ r.alignment = .locking ∧ l.offset = 6 then
      [.framePairFound u (decide ((unitsRead r).truncate 7 = 0b1110010#7))]
    else []
  | none => []

/-- The steps of a unit read, by the receiver before its sample: the pair sought in SEEKING, the symbol of LOCKING, and the
symbol read with a frame reference. -/
def unitDue (s : State) (u : TrunkId) : List Instr :=
  let r := (s.trunk u).receiver
  (if readsUnit r && decide (r.alignment = .seeking) && decide (unitsRead r = 0b11100101110010) then
    [.framePairFound u true]
  else []) ++ lockDue r u ++
    if endsSymbol r ∧ r.alignment ≠ .locking then s.symbolEvent u ((unitsRead r).truncate 7) else []

theorem unitDue_eq_nil {s : State} {u : TrunkId} (idle : readsUnit (s.trunk u).receiver = false) : unitDue s u = [] := by
  have noEnd : endsSymbol (s.trunk u).receiver = false := by rw [endsSymbol, idle, Bool.false_and, Bool.false_and]
  unfold unitDue lockDue
  cases l : (s.trunk u).receiver.lock <;> simp [l, idle, noEnd]

theorem readUnit_snd {s : State} {u : TrunkId} (reads : readsUnit (s.trunk u).receiver = true) :
    ((s.onReceiver u Receiver.sampled).readUnit u).2 = unitDue s u := by
  unfold State.readUnit
  dsimp only
  rw [onReceiver_onReceiver]
  have taken := takeUnit_sampled reads
  have symbol (sym : Pattern) :
      (s.onReceiver u fun r => r.sampled.takeUnit).symbolEvent u sym = s.symbolEvent u sym := by
    refine symbolEvent_congr (s := s) ?_ ?_ ?_ ?_ sym <;> simp [taken]
  unfold State.unitEvents unitDue
  simp only [trunk_onReceiver, if_true, taken, symbol, framePairUnits_eq]
  unfold Receiver.lockEvent lockDue Receiver.lastSymbol endsSymbol inSymbols
  cases (s.trunk u).receiver.alignment
  case locking =>
    cases (s.trunk u).receiver.lock
    case none => simp
    case some l =>
      by_cases ends : ((s.trunk u).receiver.unitCount + 1) % 7 = 0
      · simp [reads, ends, frameSymbol]
        rfl
      · simp [ends]
  all_goals simp [reads]
  all_goals cases (s.trunk u).receiver.lock <;> simp

theorem receiverDue_eq {s : State} {u : TrunkId} (now : (s.trunk u).receiver.sampleTimer = 0) :
    receiverDue s u =
      (s.trunk u).receiver.breakEvent u ++ (s.trunk u).receiver.measurementEvent u ++ unitDue s u := by
  rw [breakEvent_eq, measurementEvent_eq]
  unfold receiverDue unitDue lockDue
  simp only [now, decide_true, Bool.true_and, List.append_assoc] <;> rfl

theorem sampleLine_snd {s : State} {u : TrunkId} (now : (s.trunk u).receiver.sampleTimer = 0) :
    (s.sampleLine u).2 = receiverDue s u := by
  rw [receiverDue_eq now]
  unfold State.sampleLine
  dsimp only
  split
  next eight => exact congrArg _ (readUnit_snd ((position_eq_eight_iff now).mp eight))
  next other =>
    have idle : readsUnit (s.trunk u).receiver = false := by
      rwa [position_eq_eight_iff now, Bool.not_eq_true] at other
    rw [unitDue_eq_nil idle, List.append_nil]

theorem receiverDue_eq_nil {s : State} {u : TrunkId} (later : (s.trunk u).receiver.sampleTimer ≠ 0) :
    receiverDue s u = [] := by
  have noUnit : readsUnit (s.trunk u).receiver = false := by simp [readsUnit, later]
  have noEnd : endsSymbol (s.trunk u).receiver = false := by rw [endsSymbol, noUnit, Bool.false_and, Bool.false_and]
  unfold receiverDue
  cases l : (s.trunk u).receiver.lock <;> simp [l, later, noUnit, noEnd]

theorem tickReceiver_eq (s : State) (u : TrunkId) :
    s.tickReceiver u = (s.onReceiver u (receiverAfter (s.rateClass u)), receiverDue s u) := by
  unfold State.tickReceiver
  split
  next now =>
    dsimp only
    rw [sampleLine_fst, sampleLine_snd now, onReceiver_onReceiver]
    exact congrArg (·, receiverDue s u) (onReceiver_congr (afterSample_eq now _))
  next later =>
    rw [receiverDue_eq_nil later]
    exact congrArg (·, []) (onReceiver_congr (if_pos later).symm)

end Sys2Proof.Machine
end

section
/-!
PROOFS. The period of a whole trunk, of all four, and of the part (R13, R143, R180, R184, R194; log entry 8).
-/

namespace Sys2Proof.Machine

open Sys2Proof.Claims

/-! ### Timers and transmitter -/

theorem tickBringUp_eq (s : State) (u : TrunkId) :
    s.tickBringUp u =
      (s.onBringUp u fun b =>
        { b with linkTimer := b.linkTimer.map (· + 1), limitTimer := b.limitTimer.map (· + 1) }, timersDue s u) := by
  have run (timer : Option Nat) (period : Nat) : (runTimer timer period).1 = timer.map (· + 1) := by
    cases timer <;> rfl
  unfold State.tickBringUp timersDue
  dsimp only
  refine Prod.ext (onTrunk_congr s (by simp only [run])) ?_
  have due (timer : Option Nat) (period : Nat) (x : Instr) :
      (if (runTimer timer period).2 then [x] else []) =
        match timer with
        | some n => if period ≤ n + 1 then [x] else []
        | none => [] := by
    cases timer <;> simp [runTimer]
  rw [linkPeriod_eq, due, due]
  rfl

theorem endUnit_eq {s : State} {u : TrunkId} {f : Framing} (sending : (s.trunk u).transmitter = some f)
    (ends : unitTime f.rate ≤ f.timer + 1) : f.endUnit u (s.slotCount u) = (transmitterAfter f, symbolDue s u) := by
  have passed : ¬ f.timer + 1 < unitTime f.rate := Nat.not_lt.mpr ends
  unfold Framing.endUnit transmitterAfter symbolDue
  rw [sending]
  dsimp only
  rw [if_neg passed]
  by_cases inner : f.unit < 7
  · simp [inner]
  · cases stop : f.stopping
    case true => cases f.kind <;> simp [passed, inner]
    case false =>
      cases k : f.kind
      case data => simp [passed, inner]
      case bringUp w =>
        by_cases more : f.symbol < 6
        · have pattern : bringUpPattern w (f.symbol + 1) =
              if f.symbol ≤ 1 then 0b1110010 else codePattern (w.extractLsb' (5 * (5 - f.symbol)) 5) := by
            unfold bringUpPattern wordSymbol frameSymbol
            simp
          simp [inner, more, pattern]
        · simp [passed, inner, more]

theorem tickTransmitter_eq (s : State) (u : TrunkId) :
    s.tickTransmitter u =
      (s.onTrunk u fun k => { k with transmitter := k.transmitter.map transmitterAfter }, symbolDue s u) := by
  unfold State.tickTransmitter
  split
  next idle =>
    have none : symbolDue s u = [] := by
      unfold symbolDue
      rw [idle]
    rw [none]
    exact congrArg (·, []) (onTrunk_self s (by rw [idle, Option.map_none, ← idle])).symm
  next f sending =>
    rw [unitPeriod_eq]
    by_cases within : f.timer + 1 < unitTime f.rate
    · have noneDue : symbolDue s u = [] := by
        unfold symbolDue
        rw [sending]
        simp [within]
      rw [if_pos within, noneDue]
      refine congrArg (·, []) (onTrunk_congr s ?_)
      rw [sending]
      simp [transmitterAfter, within]
    · rw [if_neg within, endUnit_eq sending (Nat.not_lt.mp within)]
      refine congrArg (·, symbolDue s u) (onTrunk_congr s ?_)
      rw [sending, Option.map_some]

/-! ### The trunks -/

/-- The steps that a trunk makes due in a period, in order (log entry 36). -/
def trunkDue (s : State) (u : TrunkId) : List Instr := receiverDue s u ++ timersDue s u ++ symbolDue s u

/-- What a period makes of a trunk and the steps it makes due depend on that trunk and the setup only. -/
theorem trunkAfter_congr {s s' : State} {u : TrunkId} (setup : s'.setup = s.setup) (trunk : s'.trunk u = s.trunk u) :
    trunkAfter s' u = trunkAfter s u := by
  unfold trunkAfter State.rateClass
  rw [setup, trunk]

theorem timersDue_congr {s s' : State} {u : TrunkId} (setup : s'.setup = s.setup)
    (bringUp : (s'.trunk u).bringUp = (s.trunk u).bringUp) : timersDue s' u = timersDue s u := by
  unfold timersDue State.bringUpLimit State.linkSelect
  rw [setup, bringUp]

theorem symbolDue_congr {s s' : State} {u : TrunkId} (setup : s'.setup = s.setup)
    (transmitter : (s'.trunk u).transmitter = (s.trunk u).transmitter) : symbolDue s' u = symbolDue s u := by
  unfold symbolDue State.slotCount
  rw [setup, transmitter]

theorem trunkDue_congr {s s' : State} {u : TrunkId} (setup : s'.setup = s.setup) (trunk : s'.trunk u = s.trunk u) :
    trunkDue s' u = trunkDue s u := by
  have receiver : receiverDue s' u = receiverDue s u := by
    unfold receiverDue
    rw [trunk]
    simp only [symbolEvent_congr setup (congrArg (·.receiver.alignment) trunk) (congrArg (·.receiver.ref) trunk)
      (congrArg (·.receiver.switchWindow) trunk)]
  unfold trunkDue
  rw [receiver, timersDue_congr setup (congrArg Trunk.bringUp trunk),
    symbolDue_congr setup (congrArg Trunk.transmitter trunk)]

theorem tickTrunk_eq (s : State) (due : List Instr) (u : TrunkId) :
    State.tickTrunk (s, due) u = (s.onTrunk u fun _ => trunkAfter s u, due ++ trunkDue s u) := by
  unfold State.tickTrunk chain
  simp only [tickReceiver_eq, tickBringUp_eq, tickTransmitter_eq]
  refine Prod.ext ?_ ?_
  · show ((s.onReceiver u _).onBringUp u _).onTrunk u _ = _
    unfold State.onReceiver State.onBringUp
    rw [onTrunk_onTrunk, onTrunk_onTrunk]
    exact onTrunk_congr s rfl
  · have timers : timersDue (s.onReceiver u (receiverAfter (s.rateClass u))) u = timersDue s u :=
      timersDue_congr rfl (by simp)
    dsimp only
    have symbol (f : BringUp → BringUp) :
        symbolDue ((s.onReceiver u (receiverAfter (s.rateClass u))).onBringUp u f) u = symbolDue s u :=
      symbolDue_congr rfl (by simp)
    rw [timers, symbol]
    simp only [trunkDue, List.append_assoc]

/-- The state after a period of some trunks. -/
def afterTrunks (s : State) (l : List TrunkId) : State :=
  { s with trunks := Vector.ofFn fun u => if u ∈ l then trunkAfter s u else s.trunk u }

theorem trunk_afterTrunks (s : State) (l : List TrunkId) (u : TrunkId) :
    (afterTrunks s l).trunk u = if u ∈ l then trunkAfter s u else s.trunk u := by
  unfold afterTrunks State.trunk
  simp

theorem afterTrunks_nil (s : State) : afterTrunks s [] = s := by
  have trunks : (Vector.ofFn fun u => s.trunk u) = s.trunks := by
    ext i hi
    simp [State.trunk]
  unfold afterTrunks
  simp [trunks]

theorem afterTrunks_cons {s : State} {u : TrunkId} {l : List TrunkId} (new : u ∉ l) :
    afterTrunks (s.onTrunk u fun _ => trunkAfter s u) l = afterTrunks s (u :: l) := by
  unfold afterTrunks
  have trunks (v : TrunkId) :
      (if v ∈ l then trunkAfter (s.onTrunk u fun _ => trunkAfter s u) v else (s.onTrunk u fun _ => trunkAfter s u).trunk v) =
        if v ∈ u :: l then trunkAfter s v else s.trunk v := by
    by_cases self : u = v
    · subst self
      simp [new]
    · have other : (s.onTrunk u fun _ => trunkAfter s u).trunk v = s.trunk v := by simp [self]
      have after : trunkAfter (s.onTrunk u fun _ => trunkAfter s u) v = trunkAfter s v := trunkAfter_congr rfl other
      rw [after, other]
      simp [Ne.symm self]
  simp only [trunks]
  rfl

theorem foldl_tickTrunk {l : List TrunkId} (distinct : l.Nodup) (s : State) (due : List Instr) :
    l.foldl State.tickTrunk (s, due) = (afterTrunks s l, due ++ l.flatMap (trunkDue s)) := by
  induction l generalizing s due with
  | nil => simp [afterTrunks_nil]
  | cons u l ih =>
    obtain ⟨new, distinct⟩ := List.nodup_cons.mp distinct
    have same : l.flatMap (trunkDue (s.onTrunk u fun _ => trunkAfter s u)) = l.flatMap (trunkDue s) := by
      refine List.flatMap_congr fun v mem => trunkDue_congr rfl ?_
      have other : u ≠ v := fun e => new (e ▸ mem)
      simp [other]
    rw [List.foldl_cons, tickTrunk_eq, ih distinct, same, afterTrunks_cons new, List.flatMap_cons, List.append_assoc]

/-! ### Hold timer, MINUTE pin and the part -/

theorem tickHold_fst (s : State) :
    s.tickHold.1 = { s with hold := s.hold.map fun h => { h with elapsed := h.elapsed + 1 } } := by
  unfold State.tickHold
  split
  next none =>
    rw [none, Option.map_none]
    cases s
    cases none
    rfl
  next some =>
    rw [some]
    rfl

theorem selects_iff (s : State) (high : Bool) :
    s.selects (if high then .rising else .falling) = true ↔
      s.edgeSelect = 3 ∨ s.edgeSelect = if high then 1 else 2 := by
  unfold State.selects
  rcases s.edgeSelect with _ | _ | _ | _ | n <;> cases high <;> simp

theorem tickMinute_fst (s : State) : s.tickMinute.1 = { s with clock := clockAfter s.clock } := by
  unfold State.tickMinute clockAfter Config.lrefPerMicrosecond
  split
  · rfl
  · unfold Clock.sample
    dsimp only
    split
    next same =>
      cases a : s.clock.accepted with
      | none => rfl
      | some level =>
        by_cases stays : s.clock.pin = level
        · simp [stays]
        · simp [stays]
    next => rfl

theorem tickMinute_snd (s : State) :
    s.tickMinute.2 =
      if 48 ≤ s.clock.lref + 1 ∧ s.clock.lastSample = some s.clock.pin ∧ s.clock.accepted = some (!s.clock.pin) ∧
          (s.edgeSelect = 3 ∨ s.edgeSelect = if s.clock.pin then 1 else 2) then
        [.minuteAdvance (if s.clock.pin then .rising else .falling)]
      else [] := by
  simp only [← selects_iff]
  unfold State.tickMinute Config.lrefPerMicrosecond
  by_cases within : s.clock.lref + 1 < 48
  · rw [if_pos within, if_neg fun due => absurd due.1 (Nat.not_le.mpr within)]
  · have due : 48 ≤ s.clock.lref + 1 := Nat.not_lt.mp within
    rw [if_neg within]
    unfold Clock.sample
    dsimp only
    by_cases same : s.clock.lastSample = some s.clock.pin
    · rw [if_pos same]
      cases a : s.clock.accepted with
      | none => simp
      | some level =>
        by_cases stays : s.clock.pin = level
        · simp [← stays]
        · have edge : level = !s.clock.pin := by
            revert stays
            cases s.clock.pin <;> cases level <;> simp
          simp [due, same, edge]
    · simp [same]

theorem runPeriod_eq (s : State) :
    s.runPeriod =
      (afterTrunks
        { s with
          hold := s.hold.map fun h => { h with elapsed := h.elapsed + 1 }
          clock := clockAfter s.clock } allTrunks,
        clockDue s ++ allTrunks.flatMap (trunkDue s)) := by
  have hold : s.tickHold.2 = match s.hold with
      | some h => if 48 * h.limit ≤ h.elapsed + 1 then [.holdTimerExpiry] else []
      | none => [] := by
    unfold State.tickHold Hold.run Config.lrefPerMicrosecond
    cases s.hold <;> simp
  unfold State.runPeriod
  have start : chain (chain (s, []) State.tickHold) State.tickMinute =
      ({ s with
          hold := s.hold.map fun h => { h with elapsed := h.elapsed + 1 }
          clock := clockAfter s.clock }, clockDue s) := by
    unfold chain clockDue
    dsimp only
    rw [tickHold_fst, tickMinute_fst, tickMinute_snd, hold]
    rfl
  rw [start, foldl_tickTrunk (by decide)]
  refine congrArg (Prod.mk _) (congrArg (clockDue s ++ ·) (List.flatMap_congr fun v _ => trunkDue_congr rfl rfl))

theorem tick_eq (s : State) :
    s.tick =
      { s with
        hold := s.hold.map fun h => { h with elapsed := h.elapsed + 1 }
        clock := clockAfter s.clock
        trunks := Vector.ofFn (trunkAfter s)
        pending := s.pending ++ (clockDue s ++ allTrunks.flatMap (trunkDue s)) } := by
  unfold State.tick
  rw [runPeriod_eq]
  unfold afterTrunks allTrunks
  simp only [List.mem_finRange, if_true]
  rfl

/-- Settles O2: every part of the period is a change of one trunk, of the hold or of the clock. -/
theorem idleStepIsOnePeriod : Obligations.IdleStepIsOnePeriod := by
  intro s idle
  refine ⟨s.tick, ?_, ?_, ?_, ?_, fun u => ?_, ?_⟩
  · unfold step
    rw [idle]
  · rw [tick_eq]
  · rw [tick_eq]
  · rw [tick_eq]
  · rw [tick_eq]
    unfold State.trunk
    simp
  · have four : allTrunks = [0, 1, 2, 3] := by decide
    rw [tick_eq, idle, four, List.nil_append]
    exact congrArg (clockDue s ++ ·) (List.flatMap_congr fun u _ => trunkDue.eq_1 s u)

end Sys2Proof.Machine
end

section
/-!
PROOFS. The invariants: the completion queue's shares with the room a hold keeps (R8, R12), and the canonical form of the
setup shadows. Each is shown for the primitive changes of the store path, the items, the clock and the period, and carried to
every step by `Kept`.
-/

namespace Sys2Proof.Machine

open Sys2Proof.Safety Sys2Proof.Claims

/-! ### Properties of the untouched parts -/

/-- A property of the parts that the operations on stories, windows, desks, trunks and reports leave alone is stable. -/
theorem stable_of_rest (Q : Rest → Prop) : Stable False (fun s => Q s.rest) where
  desk := fun _ _ l => l.elim
  trunk := fun _ _ l => l.elim
  onStory := fun _ _ h => h
  onWindow := fun _ _ h => h
  completion := fun _ h => h
  clearHold := fun h => h
  onDesk := fun _ _ h _ => h
  onTrunk := fun _ _ h _ => h
  report := fun {s} r h => by rwa [rest_report]

/-! ### The completion queue's shares -/

theorem countP_append_singleton {α : Type} (p : α → Bool) (l : List α) (x : α) :
    (l ++ [x]).countP p = l.countP p + if p x then 1 else 0 := by
  rw [List.countP_append, List.countP_singleton]

theorem countP_eraseIdx_le {α : Type} (p : α → Bool) (l : List α) (i : Nat) : (l.eraseIdx i).countP p ≤ l.countP p :=
  (List.eraseIdx_sublist l i).countP_le

theorem countP_set_of_eq {α : Type} {p : α → Bool} {l : List α} {i : Nat} {x y : α} (at_ : l[i]? = some x)
    (same : p y = p x) : (l.set i y).countP p = l.countP p := by
  induction l generalizing i with
  | nil => rfl
  | cons z l ih =>
    cases i with
    | zero =>
      obtain rfl : z = x := by simpa using at_
      simp [List.countP_cons, same]
    | succ i => simp [List.countP_cons, ih (i := i) (by simpa using at_)]

/-- The two shares of a completion queue (R8). -/
def Shares (entries : List QueueEntry) (upstream own : Nat) : Prop :=
  (entries.countP fun e => decide (e.owner = .upstream)) ≤ upstream ∧
    (entries.countP fun e => decide (e.owner ≠ .upstream)) ≤ own

theorem Shares.eraseIdx {l : List QueueEntry} {m n : Nat} (h : Shares l m n) (i : Nat) : Shares (l.eraseIdx i) m n :=
  ⟨(countP_eraseIdx_le _ l i).trans h.1, (countP_eraseIdx_le _ l i).trans h.2⟩

theorem Shares.set {l : List QueueEntry} {m n i : Nat} {x y : QueueEntry} (h : Shares l m n) (at_ : l[i]? = some x)
    (same : y.owner = x.owner) : Shares (l.set i y) m n := by
  unfold Shares
  rw [countP_set_of_eq at_ (by rw [same]), countP_set_of_eq at_ (by rw [same])]
  exact h

/-- The completion queue's limits, by its shares: 7 UPSTREAM entries at most during a hold. -/
theorem completionQueue_iff (s : State) :
    CompletionQueue s ↔ Shares s.entries (if s.hold.isSome then 7 else 8) 8 := by
  unfold CompletionQueue Shares
  change (s.entries.countP _ ≤ 8 ∧ s.entries.countP _ ≤ 8 ∧ (_ → s.entries.countP _ < 8)) ↔ _
  cases s.hold with
  | none => simp
  | some x =>
    simp
    omega

theorem completionQueue_of_shares {s t : State} (h : CompletionQueue s)
    (hold : t.hold.isSome → s.hold.isSome) (shares : ∀ m n, Shares s.entries m n → Shares t.entries m n) :
    CompletionQueue t := by
  rw [completionQueue_iff] at h ⊢
  have kept := shares _ _ h
  revert hold kept
  cases t.hold <;> cases s.hold <;> simp [Shares]
  intro _ _
  omega

/-- A change of neither the entries nor the hold keeps the limits. -/
theorem completionQueue_of_eq {s t : State} (h : CompletionQueue s) (entries : t.entries = s.entries)
    (hold : t.hold.isSome → s.hold.isSome) : CompletionQueue t :=
  completionQueue_of_shares h hold fun _ _ k => entries ▸ k

theorem stable_completionQueue : Stable False CompletionQueue where
  desk := fun _ _ l => l.elim
  trunk := fun _ _ l => l.elim
  onStory := fun _ _ h => h
  onWindow := fun _ _ h => h
  completion := fun _ h => h
  clearHold := fun h => completionQueue_of_eq h rfl fun e => absurd e (by simp [State.clearHold])
  onDesk := fun _ _ h _ => h
  onTrunk := fun _ _ h _ => h
  report := fun {s} r h => completionQueue_of_eq h (report_entries s r) fun e => by rwa [report_hold] at e

theorem completionQueue_store : KeptByStore False CompletionQueue where
  stable := stable_completionQueue
  port := fun _ h => h
  ownWait := fun _ h => h
  downBus := fun _ h => h
  upBus := fun _ h => h
  joins := fun {s} access isLocal result h => by
    obtain ⟨⟨-, own, -⟩, noHold, room⟩ := h
    unfold CompletionQueue State.upstreamEntries State.ownEntries
    unfold State.ownEntries at own
    unfold State.upstreamEntries at room
    simp only [countP_append_singleton, noHold]
    simp
    simp at own room
    omega
  beginHold := fun {s} cause h => ⟨h.1.1, h.1.2.1, fun _ => h.2.2⟩
  takeCopy := fun _ _ h => h

/-- An own entry joins only with fewer than 8 own entries (R8, R16). -/
theorem completionQueue_joinsOwn {s t : State} {owner access} (h : CompletionQueue s) (own : owner ≠ .upstream)
    (room : s.ownEntries < 8)
    (entries : t.entries = s.entries ++ [{ owner := owner, access := access, isLocal := false, result := none }])
    (hold : t.hold = s.hold) : CompletionQueue t := by
  obtain ⟨upstream, -, held⟩ := h
  unfold CompletionQueue State.upstreamEntries State.ownEntries
  unfold State.upstreamEntries at upstream held
  unfold State.ownEntries at room
  simp only [entries, hold, countP_append_singleton]
  simp only [own, ne_eq, decide_not, decide_false, Bool.not_false] at *
  simp only [Bool.false_eq_true, if_false, if_true]
  exact ⟨upstream, room, held⟩

theorem ownEntries_lt_of_grantsFetch {s : State} (g : s.grantsFetch = true) :
    s.ownEntries < 8 ∧ s.fetchEntries < s.fetchLimit := by
  unfold State.grantsFetch State.fetchReady queueShare at g
  simp only [Bool.and_eq_true, decide_eq_true_eq] at g
  obtain ⟨⟨-, ⟨⟨-, room⟩, limit⟩⟩, -⟩ := g
  exact ⟨room, limit⟩

theorem ownEntries_lt_of_grantsWriter {s : State} (g : s.grantsWriter = true) : s.ownEntries < 8 := by
  unfold State.grantsWriter State.writerReady queueShare at g
  simp only [Bool.and_eq_true, decide_eq_true_eq] at g
  obtain ⟨⟨-, ⟨-, room⟩⟩, -⟩ := g
  exact room

theorem completionQueue_acts : KeptByActs CompletionQueue where
  stable := stable_completionQueue
  setup := fun _ h => h
  writer := fun _ _ h => h
  mode := fun _ h => h
  minute := fun _ _ h => h
  softReset := fun {s} h => by
    unfold State.softReset
    exact stable_completionQueue.reportPlain (completionQueue_of_eq (s := s) h rfl fun e => absurd e (by simp))

/-! ### What matching a completion can do -/

/-- The entry matched stands in the queue and awaits a completion (R9). -/
theorem getElem?_of_oldestWaiting {s : State} {i : Nat} {e : QueueEntry} (h : s.oldestWaiting = some (i, e)) :
    s.entries[i]? = some e := by
  unfold State.oldestWaiting at h
  obtain ⟨⟨e', i'⟩, found, eq⟩ := Option.map_eq_some_iff.mp h
  obtain ⟨rfl, rfl⟩ : i' = i ∧ e' = e := by simpa using eq
  have mem := List.mem_of_find?_eq_some found
  simpa using List.mem_zipIdx_iff_getElem?.mp mem

section

variable {lim : Prop} {P : State → Prop} (hP : Stable lim P) {s : State}
include hP

/-- A property that changes of the report writer's side keep is kept by a returned own write (R190, R193). -/
theorem writerReturn_keeps (writer : ∀ {s : State} (f : ReportWriter → ReportWriter),
    (∀ w, (f w).queue = w.queue ∧ (f w).missed = w.missed) → P s → P (s.onWriter f))
    (setLine : ∀ {s : State} k, P s → P (s.setLine k)) (h : P s) (st : Status) : P (s.writerReturn st) := by
  have note {s : State} (h : P s) : P (s.noteStatus st) := by
    cases st
    · exact h
    · exact writer (fun w => { w with storeFault := true, alert := true }) (fun _ => ⟨rfl, rfl⟩) h
  unfold State.writerReturn
  split
  · exact h
  · split
    · exact writer _ (fun _ => ⟨rfl, rfl⟩) h
    · split
      · exact note (setLine _ (writer _ (fun _ => ⟨rfl, rfl⟩) h))
      · unfold State.blockWritten
        dsimp only
        have ended := note (writer (fun w => { w with outstanding := none }) (fun _ => ⟨rfl, rfl⟩) h)
        split
        · exact ended
        · split
          · exact hP.reportPlain (writer _ (fun _ => ⟨rfl, rfl⟩) ended)
          · exact ended

theorem fetchReturn_keeps (freeUse : ∀ {s : State} n, P s → P { s with freeUse := n }) (h : P s) {d e st data} :
    P (s.fetchReturn d e st data) := by
  unfold State.fetchReturn
  split
  · cases st
    case ok =>
      dsimp only
      unfold State.fillStaging
      split
      · exact h
      · have counted := freeUse (if data.length < 4 then s.freeUse + 1 else s.freeUse) h
        refine hP.sameDesk counted ?_ ?_ ?_ <;> split <;> rfl
    case error => exact hP.fetchError h
  · exact h

end

theorem kept_completionQueue : Kept CompletionQueue where
  stable := stable_completionQueue
  hardReset := fun _ _ => ⟨Nat.zero_le 8, Nat.zero_le 8, fun e => absurd e (by simp [State.hardReset, State.reset])⟩
  takeUpstream := fun _ h => completionQueue_store.takeUpstream h
  holdExpiry := fun h => completionQueue_store.holdExpiry h h.2.2
  returnUpstream := fun {s} h => by
    unfold State.returnUpstream
    split
    · exact h
    · split
      · exact h
      · exact completionQueue_of_shares h id fun _ _ k => k.eraseIdx _
  complete := fun {s} st data h => by
    unfold State.complete
    split
    · exact h
    next i e found =>
      have erased : CompletionQueue { s with entries := s.entries.eraseIdx i } :=
        completionQueue_of_shares h id fun _ _ k => k.eraseIdx i
      split
      · exact completionQueue_of_shares h id fun _ _ k => k.set (getElem?_of_oldestWaiting found) rfl
      · exact fetchReturn_keeps stable_completionQueue (fun _ h => h) erased
      all_goals
        refine writerReturn_keeps stable_completionQueue (fun _ _ h => h) (fun _ h => ?_) erased st
        rw [setLine_eq]
        exact h
  grantFetch := fun {s} h => by
    unfold State.grantFetch
    split
    next g =>
      split
      · exact h
      · exact completionQueue_joinsOwn h (by simp) (ownEntries_lt_of_grantsFetch g).1 rfl rfl
    next => exact h
  grantRecord := fun {s} h => by
    unfold State.grantRecord
    split
    next g =>
      split
      · exact h
      · exact completionQueue_joinsOwn h (by simp) (ownEntries_lt_of_grantsWriter g.1) rfl rfl
    next => exact h
  grantBlock := fun {s} h => by
    unfold State.grantBlock
    split
    next g =>
      split
      · exact h
      · exact completionQueue_joinsOwn h (by simp) (ownEntries_lt_of_grantsWriter g.1) rfl rfl
    next => exact h
  carryOut := fun mine h => completionQueue_acts.carryOut (fun h => h) h mine
  minuteEdge := fun {s} e h => by
    unfold State.minuteEdge State.advanceMinute
    have hP := stable_completionQueue
    split
    · exact hP.testRooms (hP.testFlags (hP.releaseMinute (completionQueue_of_eq (s := s) h rfl id)))
    · exact h
  tick := fun {s} h => by
    rw [tick_eq]
    exact completionQueue_of_eq (s := s) h rfl (by simp)
  pending := fun _ h => h

theorem grantFetch_of_limit {s : State} (full : s.fetchLimit ≤ s.fetchEntries) : s.grantFetch = s :=
  if_neg fun g => absurd (ownEntries_lt_of_grantsFetch g).2 (Nat.not_lt.mpr full)

/-- Settles O57: an UPSTREAM entry joins only at a grant, of which 8 is the bound, or for a hold's write, for which the hold
keeps room. -/
theorem completionQueueKept : Obligations.CompletionQueueKept := by
  refine ⟨fun s t h e => kept_completionQueue.step h e, fun s t granted full => ?_⟩
  obtain rfl : s.grantFetch = t := Host.Outcome.next.inj granted
  exact grantFetch_of_limit full

end Sys2Proof.Machine
end

section
/-!
PROOFS. The canonical form of the setup shadows, and the limits of desks, trunks, control FIFO, report queue and minute: kept
by every step, and true right after a hard reset.
-/

namespace Sys2Proof.Machine

open Sys2Proof.Safety Sys2Proof.Claims

/-! ### The setup shadows -/

theorem stable_setup : Stable False Setup := stable_of_rest fun r => Memory.wf r.setup

theorem setup_store : KeptByStore False Setup where
  stable := stable_setup
  port := fun _ h => h
  ownWait := fun _ h => h
  downBus := fun _ h => h
  upBus := fun _ h => h
  joins := fun _ _ _ h => h.1
  beginHold := fun _ h => h.1
  takeCopy := fun _ _ h => h

theorem setup_acts : KeptByActs Setup where
  stable := stable_setup
  setup := fun cells h => Shadow.overlay_wf h cells
  writer := fun _ _ h => h
  mode := fun _ h => h
  minute := fun _ _ h => h
  softReset := fun {s} h => by
    unfold State.softReset
    exact stable_setup.reportPlain h

/-- A property of the state that the change of the completion queue's entries keeps, whatever they become, is kept by a
returned completion. -/
theorem complete_keeps {lim : Prop} {P : State → Prop} (hP : Stable lim P)
    (entries : ∀ {s : State} l, P s → P { s with entries := l })
    (freeUse : ∀ {s : State} n, P s → P { s with freeUse := n })
    (writer : ∀ {s : State} (f : ReportWriter → ReportWriter),
      (∀ w, (f w).queue = w.queue ∧ (f w).missed = w.missed) → P s → P (s.onWriter f))
    {s : State} (h : P s) (st : Status) (data : List BeatData) : P (s.complete st data) := by
  have setLine {s : State} (k : ReportKind) (h : P s) : P (s.setLine k) := by
    rw [setLine_eq]
    exact writer _ (fun _ => ⟨rfl, rfl⟩) h
  unfold State.complete
  split
  · exact h
  · split
    · exact entries _ h
    · exact fetchReturn_keeps hP freeUse (entries _ h)
    · exact writerReturn_keeps hP writer setLine (entries _ h) st
    · exact writerReturn_keeps hP writer setLine (entries _ h) st

theorem returnUpstream_setup (s : State) : s.returnUpstream.setup = s.setup := by
  unfold State.returnUpstream
  split
  · rfl
  · split <;> rfl

theorem grantFetch_setup (s : State) : s.grantFetch.setup = s.setup := by
  unfold State.grantFetch
  split
  · split <;> rfl
  · rfl

theorem grantRecord_setup (s : State) : s.grantRecord.setup = s.setup := by
  unfold State.grantRecord
  split
  · split <;> rfl
  · rfl

theorem grantBlock_setup (s : State) : s.grantBlock.setup = s.setup := by
  unfold State.grantBlock
  split
  · split <;> rfl
  · rfl

theorem setup_of_eq {s t : State} (h : Setup s) (e : t.setup = s.setup) : Setup t := by
  unfold Setup at h ⊢
  rwa [e]

theorem kept_setup : Kept Setup where
  stable := stable_setup
  hardReset := fun _ _ => reset_setup_wf
  takeUpstream := fun _ h => setup_store.takeUpstream h
  holdExpiry := fun {s} h => by
    unfold State.holdExpiry
    split
    · unfold State.expireHold
      dsimp only
      have absorbed {u : State} (h : Setup u) (r : BusRequest) : Setup (u.absorb r) := by
        unfold State.absorb State.acceptLocal
        split <;> exact h
      split
      · exact stable_setup.reportPlain h
      · exact stable_setup.testRooms (stable_setup.expireRing (absorbed (stable_setup.clearHold h) _))
      · exact stable_setup.testRooms (stable_setup.expireTable (absorbed (stable_setup.clearHold h) _))
    · exact h
  returnUpstream := fun {s} h => setup_of_eq h (returnUpstream_setup s)
  complete := fun st data h => complete_keeps stable_setup (fun _ h => h) (fun _ h => h) (fun _ _ h => h) h st data
  grantFetch := fun {s} h => setup_of_eq h (grantFetch_setup s)
  grantRecord := fun {s} h => setup_of_eq h (grantRecord_setup s)
  grantBlock := fun {s} h => setup_of_eq h (grantBlock_setup s)
  carryOut := fun mine h => setup_acts.carryOut (fun h => h) h mine
  minuteEdge := fun {s} e h => by
    unfold State.minuteEdge State.advanceMinute
    split
    · exact stable_setup.testRooms (stable_setup.testFlags (stable_setup.releaseMinute h))
    · exact h
  tick := fun {s} h => by
    rw [tick_eq]
    exact h
  pending := fun _ h => h

/-- Settles O58: only a commit writes the shadows, byte by byte, and each write keeps their form. -/
theorem setupCanonicalKept : Obligations.SetupCanonicalKept := fun _ _ h e => kept_setup.step h e

/-! ### The limits -/

/-- The limits of desks, trunks, control FIFO, report queue and minute. -/
structure Limits (s : State) : Prop where
  desks : Desks s
  trunks : Trunks s
  fifo : ControlFifo s
  queue : ReportQueue s
  minute : Minute s

/-- Each part by the use of Laws/Frames.lean that is about it. -/
theorem stable_all : Stable True Limits :=
  have fifo := stable_of_rest fun r => r.fifo.length ≤ 4
  have minute := stable_of_rest fun r => r.clock.minute ≤ 1439
  { desk := fun h d _ => h.desks d
    trunk := fun h t _ => h.trunks t
    onStory := fun _ _ h => ⟨h.desks, h.trunks, h.fifo, h.queue, h.minute⟩
    onWindow := fun _ _ h => ⟨h.desks, h.trunks, h.fifo, h.queue, h.minute⟩
    completion := fun _ h => ⟨h.desks, h.trunks, h.fifo, h.queue, h.minute⟩
    clearHold := fun h => ⟨h.desks, h.trunks, h.fifo, h.queue, h.minute⟩
    onDesk := fun d f h k =>
      have kept := stable_limits.onDesk d f ⟨h.desks, h.trunks⟩ k
      ⟨kept.1, kept.2, h.fifo, h.queue, h.minute⟩
    onTrunk := fun t f h k =>
      have kept := stable_limits.onTrunk t f ⟨h.desks, h.trunks⟩ k
      ⟨kept.1, kept.2, h.fifo, h.queue, h.minute⟩
    report := fun r h =>
      have kept := stable_limits.report r ⟨h.desks, h.trunks⟩
      ⟨kept.1, kept.2, fifo.report r h.fifo, stable_reportQueue.report r h.queue, minute.report r h.minute⟩ }

theorem limits_onWriter {s : State} {f : ReportWriter → ReportWriter}
    (same : ∀ w, (f w).queue = w.queue ∧ (f w).missed = w.missed) (h : Limits s) : Limits (s.onWriter f) := by
  refine ⟨h.desks, h.trunks, h.fifo, ?_, h.minute⟩
  unfold ReportQueue
  rw [writer_onWriter, (same s.writer).1, (same s.writer).2]
  exact h.queue

theorem limits_setMinute {s : State} {m : Nat} (le : m ≤ 1439) (h : Limits s) : Limits (s.setMinute m) :=
  ⟨h.desks, h.trunks, h.fifo, h.queue, le⟩

theorem limits_store : KeptByStore True Limits where
  stable := stable_all
  port := fun _ h => ⟨h.desks, h.trunks, h.fifo, h.queue, h.minute⟩
  ownWait := fun _ h => ⟨h.desks, h.trunks, h.fifo, h.queue, h.minute⟩
  downBus := fun _ h => ⟨h.desks, h.trunks, h.fifo, h.queue, h.minute⟩
  upBus := fun _ h => ⟨h.desks, h.trunks, h.fifo, h.queue, h.minute⟩
  joins := fun _ _ _ h => ⟨h.1.desks, h.1.trunks, h.1.fifo, h.1.queue, h.1.minute⟩
  beginHold := fun _ h => ⟨h.1.desks, h.1.trunks, h.1.fifo, h.1.queue, h.1.minute⟩
  takeCopy := fun {s} x room h => by
    refine ⟨h.desks, h.trunks, ?_, h.queue, h.minute⟩
    show (if x.actions = [] then s.fifo else s.fifo ++ [x.actions]).length ≤ 4
    split
    · exact h.fifo
    next some => simpa [fifoLimit] using room some

theorem deskOk_softReset (k : Desk) : DeskOk k.softReset :=
  ⟨Nat.zero_le 32, Nat.zero_le 8, Nat.zero_le 255⟩

theorem trunkOk_softReset {k : Trunk} (h : TrunkOk k) : TrunkOk k.softReset :=
  ⟨Nat.zero_le 255, Nat.zero_le 8, Nat.zero_le 1, h.2.2.2⟩

theorem limits_softReset {s : State} (h : Limits s) : Limits s.softReset := by
  unfold State.softReset
  refine stable_all.reportPlain ⟨fun d => ?_, fun t => ?_, h.fifo, ⟨Nat.zero_le 16, Nat.zero_le 255⟩, h.minute⟩
  · show DeskOk (s.desks.map Desk.softReset)[d]
    have reset : (s.desks.map Desk.softReset)[d] = (s.desk d).softReset := by simp [State.desk]
    exact reset ▸ deskOk_softReset _
  · show TrunkOk (s.trunks.map Trunk.softReset)[t]
    have reset : (s.trunks.map Trunk.softReset)[t] = (s.trunk t).softReset := by simp [State.trunk]
    exact reset ▸ trunkOk_softReset (h.trunks t)

theorem limits_perform {s : State} (h : Limits s) (c : CommandKind) (w : CommandWord) : (s.perform c w).Gives Limits := by
  have hP := stable_all
  cases c
  case go => exact gives_ok ⟨h.desks, h.trunks, h.fifo, h.queue, h.minute⟩
  case softReset => exact gives_ok (limits_softReset h)
  case release =>
    exact gives_withStory fun n =>
      gives_ite (fun _ => gives_ok (hP.testRooms (hP.testFlags (hP.releaseStory h)))) fun _ => gives_error _
  case kill =>
    exact gives_withStory fun n =>
      gives_ite (fun _ => gives_ok (hP.testRooms (hP.testFlags (hP.hostKill h)))) fun _ => gives_error _
  case openDesk => exact gives_withDesk fun d => gives_ite (fun _ => gives_error _) fun _ => gives_ok (hP.openDesk h)
  case closeDesk => exact gives_withDesk fun d => gives_ite (fun _ => gives_ok (hP.closeDesk h)) fun _ => gives_error _
  case holdDesk => exact gives_withDesk fun d => gives_ite (fun _ => gives_error _) fun _ => gives_ok (hP.holdDesk h)
  case freeDesk => exact gives_withDesk fun d => gives_ite (fun _ => gives_ok (hP.freeDesk h)) fun _ => gives_error _
  case trunkUp => exact gives_withTrunk fun t => gives_ite (fun _ => gives_error _) fun _ => gives_ok (hP.trunkUp h)
  case trunkDown => exact gives_withTrunk fun t => gives_ite (fun _ => gives_error _) fun _ => gives_ok (hP.trunkDown h)
  case clearTrunkErrors => exact gives_withTrunk fun t => gives_ok (hP.clearTrunkErrors h)
  case enableWindow =>
    exact gives_withWindow fun v => gives_ite (fun _ => gives_error _) fun _ =>
      gives_ite (fun _ => gives_error _) fun _ => gives_ok (hP.enableWindow h)
  case disableWindow =>
    exact gives_withWindow fun v => gives_ite (fun _ => gives_ok (hP.disableWindow h)) fun _ => gives_error _
  case clearWindow => exact gives_withWindow fun v => gives_ok (hP.clearWindow h)
  case setClock => exact gives_ite (fun le => gives_ok (limits_setMinute le h)) fun _ => gives_error _
  case snapshot =>
    exact gives_ite (fun _ => gives_error _) fun _ => gives_ite (fun _ => gives_error _) fun _ =>
      gives_ok (limits_onWriter (fun _ => ⟨rfl, rfl⟩) h)
  case clearLine =>
    show Checked.Gives Limits (s.clearLineCommand w)
    unfold State.clearLineCommand
    split
    case h_4 => exact gives_error _
    all_goals exact gives_ok (limits_onWriter (fun _ => ⟨rfl, rfl⟩) h)

theorem limits_command {s : State} (h : Limits s) (w : CommandWord) : Limits (s.command w) := by
  unfold State.command
  split
  · exact stable_all.report _ h
  · split
    · split
      next e => exact limits_perform h _ w _ e
      next => exact stable_all.report _ h
    · exact stable_all.report _ h

theorem limits_commit {s : State} (h : Limits s) (e : EntryId) (staged : Bool) (cells : List Host.Cell) :
    Limits (s.commit e staged cells) := by
  unfold State.commit
  dsimp only
  split
  · exact stable_all.reportPlain h
  · have put : Limits { s with setup := Shadow.overlay s.setup cells } := ⟨h.desks, h.trunks, h.fifo, h.queue, h.minute⟩
    cases e
    case general n =>
      unfold State.afterCommit
      dsimp only
      split
      · exact limits_onWriter (fun _ => ⟨rfl, rfl⟩) put
      · exact put
    case window w => exact stable_all.onWindow _ _ put
    all_goals exact put

theorem limits_act {s : State} (h : Limits s) (a : Action) : Limits (s.act a) := by
  cases a with
  | commit e staged cells => exact limits_commit h e staged cells
  | command w => exact limits_command h w
  | consumed v =>
    show Limits (s.setConsumed v)
    unfold State.setConsumed
    split
    · exact limits_onWriter (fun _ => ⟨rfl, rfl⟩) h
    · exact stable_all.reportPlain h

theorem limits_carryOut {s : State} (h : Limits s) (mine : Action → Bool) : Limits (s.carryOut mine) := by
  unfold State.carryOut
  split
  · exact h
  · exact h
  next a rest _ _ =>
    split
    · have done : Limits ((a :: rest).foldl State.act s) := Stable.foldl (P := Limits) (fun _ a h => limits_act h a) _ h
      have left : Limits { (a :: rest).foldl State.act s with fifo := ((a :: rest).foldl State.act s).fifo.tail } :=
        ⟨done.desks, done.trunks, (List.length_tail.trans_le (Nat.sub_le _ _)).trans done.fifo, done.queue, done.minute⟩
      unfold State.leaveFifo
      dsimp only
      split
      · exact stable_all.clearHold left
      · exact left
    · exact h

theorem limits_grantFetch {s : State} (h : Limits s) : Limits s.grantFetch := by
  unfold State.grantFetch
  split
  · split
    · exact h
    next d b _ =>
      have marked : Limits (s.onDesk d fun k =>
          if k.staging0.isEmpty then { k with staging0 := .requested b } else { k with staging1 := .requested b }) := by
        refine stable_all.sameDesk h ?_ ?_ ?_ <;> split <;> rfl
      exact ⟨marked.desks, marked.trunks, marked.fifo, marked.queue, marked.minute⟩
  · exact h

theorem limits_grantRecord {s : State} (h : Limits s) : Limits s.grantRecord := by
  unfold State.grantRecord
  split
  · split
    · exact h
    next r rest pending =>
      refine ⟨h.desks, h.trunks, h.fifo, ⟨?_, Nat.zero_le 255⟩, h.minute⟩
      have full := h.queue.1
      rw [pending, List.length_cons] at full
      exact (Nat.le_succ _).trans full
  · exact h

theorem limits_grantBlock {s : State} (h : Limits s) : Limits s.grantBlock := by
  unfold State.grantBlock
  split
  · split
    · exact h
    · exact ⟨h.desks, h.trunks, h.fifo, h.queue, h.minute⟩
  · exact h

theorem limits_returnUpstream {s : State} (h : Limits s) : Limits s.returnUpstream := by
  unfold State.returnUpstream
  split
  · exact h
  · split
    · exact h
    · exact ⟨h.desks, h.trunks, h.fifo, h.queue, h.minute⟩

theorem limits_complete {s : State} (h : Limits s) (st : Status) (data : List BeatData) : Limits (s.complete st data) :=
  complete_keeps stable_all (fun _ h => ⟨h.desks, h.trunks, h.fifo, h.queue, h.minute⟩)
    (fun _ h => ⟨h.desks, h.trunks, h.fifo, h.queue, h.minute⟩) (fun _ same h => limits_onWriter same h) h st data

theorem limits_holdExpiry {s : State} (h : Limits s) : Limits s.holdExpiry := by
  have hP := stable_all
  have absorbed {u : State} (h : Limits u) (r : BusRequest) : Limits (u.absorb r) := by
    unfold State.absorb State.acceptLocal
    split <;> exact ⟨h.desks, h.trunks, h.fifo, h.queue, h.minute⟩
  unfold State.holdExpiry
  split
  · unfold State.expireHold
    dsimp only
    split
    · exact hP.reportPlain ⟨h.desks, h.trunks, h.fifo, h.queue, h.minute⟩
    · exact hP.testRooms (hP.expireRing (absorbed (hP.clearHold h) _))
    · exact hP.testRooms (hP.expireTable (absorbed (hP.clearHold h) _))
  · exact h

theorem limits_minuteEdge {s : State} (h : Limits s) (e : Edge) : Limits (s.minuteEdge e) := by
  have hP := stable_all
  unfold State.minuteEdge State.advanceMinute
  split
  · have edge : Limits { s with clock := s.clock.atEdge e } := ⟨h.desks, h.trunks, h.fifo, h.queue, h.minute⟩
    refine hP.testRooms (hP.testFlags (hP.releaseMinute (limits_setMinute ?_ edge)))
    exact Nat.le_of_lt_succ (Nat.mod_lt _ (by decide))
  · exact h

theorem limits_hardReset (s : State) (straps : BitVec 16) : Limits (s.hardReset straps) := by
  refine ⟨fun d => ?_, fun t => ?_, Nat.zero_le 4, ⟨Nat.zero_le 16, Nat.zero_le 255⟩, Nat.zero_le 1439⟩
  · have cleared : (s.hardReset straps).desk d = { } := by simp [State.hardReset, State.reset, State.desk]
    rw [cleared]
    exact ⟨Nat.zero_le 32, Nat.zero_le 8, Nat.zero_le 255⟩
  · have cleared : (s.hardReset straps).trunk t = { receiver := { rxd := (s.trunk t).receiver.rxd } } := by
      simp [State.hardReset, State.trunk]
    rw [cleared]
    exact ⟨Nat.zero_le 255, Nat.zero_le 8, Nat.zero_le 1, Nat.zero_le 256⟩

/-- A period raises no count but the run count, which stays at 256 (R157). -/
theorem trunkOk_trunkAfter {s : State} {u : TrunkId} (h : TrunkOk (s.trunk u)) : TrunkOk (trunkAfter s u) := by
  obtain ⟨errors, window, missed, run⟩ := h
  unfold TrunkOk trunkAfter receiverAfter
  dsimp only
  split
  · exact ⟨errors, window, missed, run⟩
  · refine ⟨errors, window, missed, ?_⟩
    dsimp only
    split
    · exact Nat.zero_le 256
    · exact Nat.min_le_left _ _

theorem limits_tick {s : State} (h : Limits s) : Limits s.tick := by
  rw [tick_eq]
  refine ⟨h.desks, fun u => ?_, h.fifo, h.queue, ?_⟩
  · show TrunkOk (Vector.ofFn (trunkAfter s))[u]
    have after : (Vector.ofFn (trunkAfter s))[u] = trunkAfter s u := by simp
    exact after ▸ trunkOk_trunkAfter (h.trunks u)
  · show (clockAfter s.clock).minute ≤ 1439
    unfold clockAfter
    split <;> exact h.minute

theorem limits_exec {s : State} (h : Limits s) (c : Instr) : ∃ t, exec c s = .next t ∧ Limits t := by
  have hP := stable_all
  cases c
  case hardReset => exact ⟨_, rfl, limits_hardReset s _⟩
  case takeUpstreamRequest => exact ⟨_, rfl, limits_store.takeUpstream h⟩
  case holdTimerExpiry => exact ⟨_, rfl, limits_holdExpiry h⟩
  case upstreamCompletionReturn => exact ⟨_, rfl, limits_returnUpstream h⟩
  case downstreamCompletion => exact ⟨_, rfl, limits_complete h _ _⟩
  case fetchReadGrant => exact ⟨_, rfl, limits_grantFetch h⟩
  case reportWriteGrant => exact ⟨_, rfl, limits_grantRecord h⟩
  case snapshotWriteGrant => exact ⟨_, rfl, limits_grantBlock h⟩
  case takeNextItem => exact ⟨_, rfl, hP.testRooms (hP.testFlag (hP.takeNext h))⟩
  case composeGroup => exact ⟨_, rfl, hP.composeStep h⟩
  case flashBreak => exact ⟨_, rfl, hP.breakStep h⟩
  case frameStart => exact ⟨_, rfl, hP.frameStart h⟩
  case slotStart => exact ⟨_, rfl, hP.slotStart h⟩
  case transmitterEntersMark => exact ⟨_, rfl, hP.enterMark h⟩
  case breakStart => exact ⟨_, rfl, hP.breakStart h⟩
  case breakEnd => exact ⟨_, rfl, hP.breakEnd h⟩
  case measurementComplete => exact ⟨_, rfl, hP.measurementComplete h⟩
  case framePairFound => exact ⟨_, rfl, hP.framePair h⟩
  case farFrameStart => exact ⟨_, rfl, hP.readAs h⟩
  case missingFrame => exact ⟨_, rfl, hP.readAs h⟩
  case returnSlotRead => exact ⟨_, rfl, hP.readAs h⟩
  case symbolRead => exact ⟨_, rfl, hP.readAs h⟩
  case bringUpWordReceived => exact ⟨_, rfl, hP.wordReceived h⟩
  case linkTimerExpiry => exact ⟨_, rfl, hP.linkExpiry h⟩
  case bringUpLimitExpiry => exact ⟨_, rfl, hP.limitExpiry h⟩
  case minuteAdvance => exact ⟨_, rfl, limits_minuteEdge h _⟩
  all_goals exact ⟨_, rfl, limits_carryOut h _⟩

theorem limits_step {s t : State} (h : Limits s) (e : step s = .next t) : Limits t := by
  unfold step at e
  split at e
  · obtain rfl : s.tick = t := Host.Outcome.next.inj e
    exact limits_tick h
  next c rest _ =>
    have front : Limits { s with pending := rest } := ⟨h.desks, h.trunks, h.fifo, h.queue, h.minute⟩
    obtain ⟨u, carried, kept⟩ := limits_exec front c
    obtain rfl : u = t := Host.Outcome.next.inj (carried.symm.trans e)
    exact kept

/-- Settles O59: the operations of Laws/Stable.lean keep the limits, and so do the store path, the items, the clock and the
period. -/
theorem limitsKept : Obligations.LimitsKept := by
  intro s t desks trunks fifo queue minute e
  have kept := limits_step ⟨desks, trunks, fifo, queue, minute⟩ e
  exact ⟨kept.desks, kept.trunks, kept.fifo, kept.queue, kept.minute⟩

/-! ### Right after a hard reset -/

theorem hardReset_reset : State.reset.hardReset 0 = State.reset := by
  have trunks : (State.reset.trunks.map fun k => ({ receiver := { rxd := k.receiver.rxd } } : Trunk)) = State.reset.trunks := by
    rw [State.reset, Vector.map_replicate]
  unfold State.hardReset
  rw [trunks]
  rfl

/-- Settles O60: the state after a hard reset is one that a hard reset gives, so the limits are those of `limits_hardReset`. -/
theorem invariantsAtReset : Obligations.InvariantsAtReset := by
  have limits : Limits State.reset := hardReset_reset ▸ limits_hardReset State.reset 0
  have noHold : State.reset.hold.isSome → State.reset.upstreamEntries < 8 := nofun
  exact ⟨⟨Nat.zero_le 8, Nat.zero_le 8, noHold⟩, reset_setup_wf, limits.desks, limits.trunks, limits.fifo,
    limits.queue, limits.minute⟩

end Sys2Proof.Machine
end

section
/-!
PROOFS. The machine's step, and the store path of the upstream side: what a request that is taken comes to by its form and its
class (R2 to R7), and what stands at the port (R3).
-/

namespace Sys2Proof.Machine

open Sys2Proof.Claims

/-! ### The machine -/

/-- Settles O1: it is what `step` says of a queue that is not empty. -/
theorem stepCarriesOutFront : Obligations.StepCarriesOutFront := by
  intro c rest s front
  unfold step
  rw [front]

/-- Settles O3: each arm of `exec` answers with a next state. -/
theorem noStepStops : Obligations.NoStepStops := by
  intro c s
  cases c <;> exact ⟨_, rfl⟩

/-! ### Taking a request -/

/-- A state with its request presented and counted as granted (R3, R14). -/
def State.atPort (s : State) (r : BusRequest) : State := { s with port := some ⟨r, false⟩, ownWait := waited s }

theorem grantsUpstream_eq_true_iff (s : State) :
    s.grantsUpstream = true ↔ s.upstreamReady = true ∧ (s.ownWait < s.yieldCount ∨ s.ownReady = false) := by
  simp [State.grantsUpstream]

theorem upstreamReady_eq_true_iff (s : State) :
    s.upstreamReady = true ↔ s.port.isSome ∧ s.hold = none ∧ s.upstreamEntries < 8 := by
  simp only [State.upstreamReady, Bool.and_eq_true, decide_eq_true_eq, Option.isNone_iff_eq_none, and_assoc]
  rfl

theorem countWait_eq (s : State) : s.countWait = { s with ownWait := waited s } := by
  unfold State.countWait waited
  split <;> rfl

theorem takeUpstream_of_standing {s : State} {r : BusRequest} {p : PortRequest} (port : s.port = some p)
    (noHold : s.hold = none) (room : s.upstreamEntries < 8) (wins : s.ownWait < s.yieldCount ∨ s.ownReady = false) :
    s.takeUpstream r =
      if p.outcomeFixed then ({ s with ownWait := waited s } : State).forward p.request
      else ({ s with ownWait := waited s } : State).classify p.request := by
  have present : s.present r = s := by
    unfold State.present
    rw [port]
  have granted : s.grantsUpstream = true := by
    rw [grantsUpstream_eq_true_iff, upstreamReady_eq_true_iff, port]
    exact ⟨⟨rfl, noHold, room⟩, wins⟩
  unfold State.takeUpstream
  rw [present]
  dsimp only
  rw [if_pos granted]
  unfold State.takeGranted
  split
  next free => exact absurd (port.symm.trans free) (Option.some_ne_none p)
  next q stands =>
    obtain rfl : p = q := Option.some.inj (port.symm.trans stands)
    rw [countWait_eq]

theorem takeUpstream_of_takenNow {s : State} {r : BusRequest} (h : TakenNow s r) :
    s.takeUpstream r = (s.atPort r).classify r := by
  obtain ⟨port, noHold, room, wins⟩ := h
  have presented : s.present r = { s with port := some ⟨r, false⟩ } := by
    unfold State.present
    rcases port with none | stands
    · rw [none]
    · rw [stands]
      dsimp only
      rw [← stands]
  have again : s.takeUpstream r = ({ s with port := some ⟨r, false⟩ } : State).takeUpstream r := by
    unfold State.takeUpstream
    rw [presented]
    rfl
  exact again.trans (takeUpstream_of_standing (s := { s with port := some ⟨r, false⟩ }) rfl noHold room wins)

theorem exec_take {s : State} {r : BusRequest} (h : TakenNow s r) :
    exec (.takeUpstreamRequest r) s = .next ((s.atPort r).classify r) :=
  congrArg Host.Outcome.next (takeUpstream_of_takenNow h)

theorem forward_atPort (s : State) (r : BusRequest) :
    (s.atPort r).forward r = forwarded { s with ownWait := waited s } r (accessOf r) := rfl

theorem acceptLocal_atPort (s : State) (r : BusRequest) (c : Completion) :
    (s.atPort r).acceptLocal r c = completedHere { s with ownWait := waited s } (accessOf r) c := rfl

/-! ### By form and class -/

theorem requestInForm_iff (r : BusRequest) : requestInForm r = true ↔ InForm r.address r.beatCount := by
  unfold requestInForm InForm
  rw [decide_eq_true_iff]

theorem classify_read {s : State} {a : Addr} {n : Nat} (form : InForm a n) :
    s.classify (.read a n) = s.forward (.read a n) := by
  unfold State.classify
  rw [if_pos ((requestInForm_iff (.read a n)).mpr form)]

theorem classify_malformed {s : State} {r : BusRequest} (broken : ¬ InForm r.address r.beatCount) :
    s.classify r = s.acceptLocal r (refusedCompletion r) := by
  unfold State.classify
  rw [if_neg fun form => broken ((requestInForm_iff r).mp form)]

theorem classify_write {s : State} {a : Addr} {beats : List Beat} (form : InForm a beats.length) :
    s.classify (.write a beats) =
      if enabledBytes a beats = [] then s.forward (.write a beats)
      else s.takeWrite a beats (enabledBytes a beats) := by
  unfold State.classify
  rw [if_pos ((requestInForm_iff (.write a beats)).mpr form)]

theorem takeWrite_of_touched {s : State} {a : Addr} {beats : List Beat} {bytes : List (Addr × Byte)} {w : WindowId}
    (touched : s.touchedWindow bytes = some w) :
    s.takeWrite a beats bytes = (s.absorb (.write a beats)).protectWrite w ((bytes.head?.map (·.1)).getD a) := by
  unfold State.takeWrite
  rw [touched]

section

variable {s : State} {a : Addr} {beats : List Beat} {bytes : List (Addr × Byte)} (untouched : s.touchedWindow bytes = none)
include untouched

theorem takeWrite_of_inPage (inside : s.inPage a = true) : s.takeWrite a beats bytes = s.takePageWrite a beats := by
  unfold State.takeWrite
  rw [untouched]
  dsimp only
  rw [if_pos inside]

theorem takeWrite_of_enabledWindow {w : WindowId} (outside : s.inPage a = false) (window : s.enabledWindow a = some w) :
    s.takeWrite a beats bytes = s.takeWindowWrite w a beats := by
  unfold State.takeWrite
  rw [untouched]
  dsimp only
  rw [if_neg (Bool.not_eq_true _ ▸ outside), window]

theorem takeWrite_of_unclassified (outside : s.inPage a = false) (noWindow : s.enabledWindow a = none) :
    s.takeWrite a beats bytes = s.forward (.write a beats) := by
  unfold State.takeWrite
  rw [untouched]
  dsimp only
  rw [if_neg (Bool.not_eq_true _ ▸ outside), noWindow]

end

/-- Settles O6: a read in form is forwarded before anything else is looked at. -/
theorem takeReadForwards : Obligations.TakeReadForwards := by
  intro s a n form taken
  rw [exec_take taken, classify_read form, forward_atPort]
  rfl

/-- Settles O7: a request out of form is completed by the part itself. -/
theorem takeMalformedRefuses : Obligations.TakeMalformedRefuses := by
  refine ⟨fun s a n broken taken => ?_, fun s a beats broken taken => ?_⟩
  · rw [exec_take taken, classify_malformed (r := .read a n) broken, acceptLocal_atPort]
    rfl
  · rw [exec_take taken, classify_malformed (r := .write a beats) broken, acceptLocal_atPort]
    rfl

/-- Settles O8: of the write path only the absorption is taken; then the protect latch decides. -/
theorem takeProtectedAbsorbs : Obligations.TakeProtectedAbsorbs := by
  intro s a beats b more w form taken bytes touched
  have enables : ¬ enabledBytes a beats = [] := by simp [bytes]
  have absorbed : (s.atPort (.write a beats)).classify (.write a beats) =
      (completedHere { s with ownWait := waited s } .write ⟨.ok, []⟩).protectWrite w b.1 := by
    have touched' : (s.atPort (.write a beats)).touchedWindow (enabledBytes a beats) = some w := by
      rw [bytes]
      exact touched
    rw [classify_write form, if_neg enables, takeWrite_of_touched touched', bytes]
    rfl
  refine ⟨_, _, exec_take taken, rfl, fun clear => ?_, fun set => ?_⟩
  · have clear' : ((completedHere { s with ownWait := waited s } .write ⟨.ok, []⟩).window w).protect = none := by
      unfold completedHere
      split <;> exact clear
    rw [absorbed]
    unfold State.protectWrite
    rw [clear']
    dsimp only
    unfold completedHere
    split <;> rfl
  · obtain ⟨first, e⟩ := Option.isSome_iff_exists.mp set
    have set' : ((completedHere { s with ownWait := waited s } .write ⟨.ok, []⟩).window w).protect = some first := by
      unfold completedHere
      split <;> exact e
    rw [absorbed]
    unfold State.protectWrite
    rw [set']
    rfl

/-- Settles O9: such a write comes to the last step of the classification. -/
theorem takePlainWriteForwards : Obligations.TakePlainWriteForwards := by
  intro s a beats form taken plain
  rw [exec_take taken, classify_write form]
  by_cases blank : enabledBytes a beats = []
  · rw [if_pos blank, forward_atPort]
    rfl
  · obtain ⟨untouched, outside, noWindow⟩ := plain.resolve_left blank
    have plain : (s.atPort (.write a beats)).takeWrite a beats (enabledBytes a beats) =
        (s.atPort (.write a beats)).forward (.write a beats) := takeWrite_of_unclassified untouched outside noWindow
    rw [if_neg blank, plain]
    rfl

/-! ### Waiting at the port -/

theorem takeUpstream_of_not_granted {s : State} {r : BusRequest}
    (no : s.hold.isSome ∨ 8 ≤ s.upstreamEntries ∨ (s.yieldCount ≤ s.ownWait ∧ s.ownReady = true)) :
    s.takeUpstream r = s.present r := by
  have noGrant : ¬ (s.present r).grantsUpstream = true := by
    rw [grantsUpstream_eq_true_iff, upstreamReady_eq_true_iff]
    have same : (s.present r).hold = s.hold ∧ (s.present r).upstreamEntries = s.upstreamEntries ∧
        (s.present r).yieldCount = s.yieldCount ∧ (s.present r).ownWait = s.ownWait ∧
        (s.present r).ownReady = s.ownReady := by
      unfold State.present
      split <;> exact ⟨rfl, rfl, rfl, rfl, rfl⟩
    obtain ⟨hold, entries, yieldCount, ownWait, ownReady⟩ := same
    rw [hold, entries, yieldCount, ownWait, ownReady]
    rintro ⟨⟨-, noHold, room⟩, wins⟩
    rcases no with held | full | ⟨waits, ready⟩
    · simp [noHold] at held
    · omega
    · rcases wins with short | idle
      · omega
      · simp [idle] at ready
  unfold State.takeUpstream
  dsimp only
  rw [if_neg noGrant]

/-- Settles O12: without a grant only the presenting is done, and a standing request is the one presented. -/
theorem requestWaitsForGrant : Obligations.RequestWaitsForGrant := by
  refine ⟨fun s r no => ⟨fun free => ?_, fun stands => ?_⟩, fun s p r stands => ?_⟩
  · refine congrArg Host.Outcome.next ((takeUpstream_of_not_granted no).trans ?_)
    unfold State.present
    rw [free]
  · refine congrArg Host.Outcome.next ((takeUpstream_of_not_granted no).trans ?_)
    obtain ⟨p, port⟩ := Option.ne_none_iff_exists'.mp stands
    unfold State.present
    rw [port]
  · have present (x : BusRequest) : s.present x = s := by
      unfold State.present
      rw [stands]
    refine congrArg Host.Outcome.next ?_
    unfold State.takeUpstream
    rw [present, present]

end Sys2Proof.Machine
end

section
/-!
PROOFS. Control-page writes (R4 step 3, R6, R21 to R23): where the entries lie in the page, what the control unit makes of one
word, and how the words of a write follow each other.
-/

namespace Sys2Proof.Machine

open Sys2Proof.Claims

/-! ### The entries of the page (Table 2-1) -/

theorem entryPlace_eq (e : EntryId) : entryPlace e = (e.base, e.words) := by
  cases e <;> rfl

theorem words_pos (e : EntryId) : 0 < e.words := by
  cases e <;> exact Nat.succ_pos _

/-- What a word of the page is, with the place that tells it (Table 2-1). -/
theorem pageWord_cases (off : Nat) :
    (∃ e i, pageWord off = .entryWord e i ∧ i < e.words ∧ 8 * (off / 8) = e.base + 8 * i) ∨
      (pageWord off = .command ∧ off / 8 = 0x1C0) ∨ (pageWord off = .consumed ∧ off / 8 = 0x1C1) ∨
      pageWord off = .noItem := by
  unfold pageWord
  by_cases h : off / 8 < 5
  · rw [dif_pos h]
    exact .inl ⟨_, _, rfl, by simp only [EntryId.words]; omega, by simp only [EntryId.base]; omega⟩
  rw [dif_neg h]
  by_cases h : off < 0x40
  · rw [if_pos h]
    exact .inr (.inr (.inr rfl))
  rw [if_neg h]
  by_cases h : (off - 0x40) / 0x10 < 8
  · rw [dif_pos h]
    exact .inl ⟨_, _, rfl, by simp only [EntryId.words]; omega, by simp only [EntryId.base]; omega⟩
  rw [dif_neg h]
  by_cases h : (off - 0xC0) / 0x20 < 4
  · rw [dif_pos h]
    exact .inl ⟨_, _, rfl, by simp only [EntryId.words]; omega, by simp only [EntryId.base]; omega⟩
  rw [dif_neg h]
  by_cases h : (off - 0x140) / 0x10 < 24
  · rw [dif_pos h]
    exact .inl ⟨_, _, rfl, by simp only [EntryId.words]; omega, by simp only [EntryId.base]; omega⟩
  rw [dif_neg h]
  by_cases h : (off - 0x2C0) / 0x10 < 16
  · rw [dif_pos h]
    exact .inl ⟨_, _, rfl, by simp only [EntryId.words]; omega, by simp only [EntryId.base]; omega⟩
  rw [dif_neg h]
  by_cases h : (off - 0x3C0) / 0x20 < 11
  · rw [dif_pos h]
    exact .inl ⟨_, _, rfl, by simp only [EntryId.words]; omega, by simp only [EntryId.base]; omega⟩
  rw [dif_neg h]
  by_cases h : off < 0x600
  · rw [if_pos h]
    exact .inr (.inr (.inr rfl))
  rw [if_neg h]
  by_cases h : (off - 0x600) / 0x100 < 4
  · rw [dif_pos h]
    exact .inl ⟨_, _, rfl, by simp only [EntryId.words]; omega, by simp only [EntryId.base]; omega⟩
  rw [dif_neg h]
  by_cases h : (off - 0xA00) / 8 < 32
  · rw [dif_pos h]
    exact .inl ⟨_, _, rfl, by simp only [EntryId.words]; omega, by simp only [EntryId.base]; omega⟩
  rw [dif_neg h]
  by_cases h : off / 8 = 0x1C0
  · rw [if_pos h]
    exact .inr (.inl ⟨rfl, h⟩)
  rw [if_neg h]
  by_cases h : off / 8 = 0x1C1
  · rw [if_pos h]
    exact .inr (.inr (.inl ⟨rfl, h⟩))
  rw [if_neg h]
  exact .inr (.inr (.inr rfl))

theorem place_of_pageWord {off : Nat} {e : EntryId} {i : Nat} (aligned : off % 8 = 0) (h : pageWord off = .entryWord e i) :
    i < e.words ∧ off = e.base + 8 * i := by
  obtain ⟨e', i', word, lt, place⟩ | ⟨word, -⟩ | ⟨word, -⟩ | word := pageWord_cases off
  · obtain ⟨rfl, rfl⟩ : e' = e ∧ i' = i := by simpa using word.symm.trans h
    exact ⟨lt, by omega⟩
  all_goals exact absurd (word.symm.trans h) (by simp)

theorem offset_of_command {off : Nat} (aligned : off % 8 = 0) (h : pageWord off = .command) : off = 0xE00 := by
  obtain ⟨e, i, word, -⟩ | ⟨-, place⟩ | ⟨word, -⟩ | word := pageWord_cases off
  case inr.inl => omega
  all_goals exact absurd (word.symm.trans h) (by simp)

theorem offset_of_consumed {off : Nat} (aligned : off % 8 = 0) (h : pageWord off = .consumed) : off = 0xE08 := by
  obtain ⟨e, i, word, -⟩ | ⟨word, -⟩ | ⟨-, place⟩ | word := pageWord_cases off
  case inr.inr.inl => omega
  all_goals exact absurd (word.symm.trans h) (by simp)

/-- Different entries hold different words: the base and the place tell the entry. -/
theorem pageWord_of_place {e : EntryId} {i : Nat} (h : i < e.words) : pageWord (e.base + 8 * i) = .entryWord e i := by
  cases e with
  | general n => exact (by decide : ∀ (n : Fin 5) (i : Nat), i < 1 → pageWord (EntryId.base (.general n) + 8 * i) = .entryWord (.general n) i) n i h
  | window w => exact (by decide : ∀ (w : Fin 8) (i : Nat), i < 2 → pageWord (EntryId.base (.window w) + 8 * i) = .entryWord (.window w) i) w i h
  | trunk t => exact (by decide : ∀ (t : Fin 4) (i : Nat), i < 4 → pageWord (EntryId.base (.trunk t) + 8 * i) = .entryWord (.trunk t) i) t i h
  | desk d => exact (by decide : ∀ (d : Fin 24) (i : Nat), i < 2 → pageWord (EntryId.base (.desk d) + 8 * i) = .entryWord (.desk d) i) d i h
  | agency a => exact (by decide : ∀ (a : Fin 16) (i : Nat), i < 2 → pageWord (EntryId.base (.agency a) + 8 * i) = .entryWord (.agency a) i) a i h
  | phrase p => exact (by decide : ∀ (p : Fin 11) (i : Nat), i < 4 → pageWord (EntryId.base (.phrase p) + 8 * i) = .entryWord (.phrase p) i) p i h
  | codeWord p k =>
    obtain rfl : i = 0 := Nat.lt_one_iff.mp h
    exact (by decide : ∀ (p : Fin 4) (k : Fin 32), pageWord (EntryId.base (.codeWord p k) + 8 * 0) = .entryWord (.codeWord p k) 0) p k
  | convWord k =>
    obtain rfl : i = 0 := Nat.lt_one_iff.mp h
    exact (by decide : ∀ k : Fin 32, pageWord (EntryId.base (.convWord k) + 8 * 0) = .entryWord (.convWord k) 0) k

end Sys2Proof.Machine
end

section
/-!
PROOFS. The copy of a control-page write (R21 to R23): the bytes of a word, what one word comes to, and the words of a write one
after another.
-/

namespace Sys2Proof.Machine

open Sys2Proof.Claims

/-! ### The bytes of a word -/

theorem wordCells_eq (off : Nat) (b : Beat) : wordCells off b = beatCells off b := by
  unfold wordCells beatCells
  have eight : List.range 8 = [0, 1, 2, 3, 4, 5, 6, 7] := rfl
  rw [eight]
  induction [0, 1, 2, 3, 4, 5, 6, 7] with
  | nil => rfl
  | cons k l ih =>
    unfold beatByte at ih ⊢
    cases e : b.enables.getLsbD k <;> simp [e, ih]

theorem enables_eq_zero_iff (b : Beat) : b.enables = 0 ↔ ∀ k < 8, b.enables.getLsbD k = false := by
  constructor
  · intro zero k _
    rw [zero]
    exact BitVec.getLsbD_zero
  · intro none
    refine BitVec.eq_of_getLsbD_eq fun k lt => ?_
    rw [none k lt]
    exact BitVec.getLsbD_zero.symm

theorem beatCells_eq_nil_iff (off : Nat) (b : Beat) : beatCells off b = [] ↔ b.enables = 0 := by
  rw [enables_eq_zero_iff]
  unfold beatCells
  have eight : [0, 1, 2, 3, 4, 5, 6, 7] = List.range 8 := rfl
  simp only [eight, List.map_eq_nil_iff, List.filter_eq_nil_iff, List.mem_range, Bool.not_eq_true]

/-- The places of a word's enabled bytes rise, so each is there at most once. -/
theorem beatCells_sorted (off : Nat) (b : Beat) : (beatCells off b).Pairwise fun c c' => c.1 < c'.1 := by
  unfold beatCells
  refine List.pairwise_map.mpr (List.Pairwise.filter _ ?_)
  have rising : [0, 1, 2, 3, 4, 5, 6, 7].Pairwise (· < ·) := by decide
  exact rising.imp fun lt => Nat.add_lt_add_left lt off

theorem find_cells (off : Nat) (b : Beat) (l : List Nat) (k : Nat) :
    Cells.find (off + k) ((l.filter fun k => b.enables.getLsbD k).map fun k => (off + k, b.data.extractLsb' (8 * k) 8)) =
      if k ∈ l ∧ b.enables.getLsbD k = true then some (b.data.extractLsb' (8 * k) 8) else none := by
  induction l with
  | nil => simp [Cells.find]
  | cons j l ih =>
    by_cases self : j = k
    · subst self
      cases e : b.enables.getLsbD j <;> simp [e, ih, Cells.find]
    · have other : ¬ k = j := Ne.symm self
      cases e : b.enables.getLsbD j <;> simp [e, ih, Cells.find, self, other]

theorem cellByte_beatCells (off : Nat) (b : Beat) {k : Nat} (lt : k < 8) :
    cellByte (beatCells off b) (off + k) = enabledByte b k := by
  have mem : k ∈ [0, 1, 2, 3, 4, 5, 6, 7] := List.mem_range.mpr lt
  unfold cellByte beatCells enabledByte
  rw [find_cells]
  cases b.enables.getLsbD k <;> simp [mem]

theorem append_four_bytes (x y z w : Byte) : BitVec.ofNat 32 (leNat [x, y, z, w]) = w ++ z ++ y ++ x := by
  apply BitVec.eq_of_toNat_eq
  have join {m n : Nat} (u : BitVec m) (v : BitVec n) : (u ++ v).toNat = u.toNat * 2 ^ n + v.toNat := by
    rw [BitVec.toNat_append, ← Nat.shiftLeft_add_eq_or_of_lt v.isLt, Nat.shiftLeft_eq]
  have hx := x.isLt
  have hy := y.isLt
  have hz := z.isLt
  have hw := w.isLt
  simp only [join, leNat, BitVec.toNat_ofNat]
  omega

theorem commandOf_beatCells (off : Nat) (b : Beat) :
    commandOf off (beatCells off b) =
      { code := enabledByte b 0, target := enabledByte b 1, handle := enabledByte b 2, generation := enabledByte b 3
        value := enabledByte b 7 ++ enabledByte b 6 ++ enabledByte b 5 ++ enabledByte b 4 } := by
  have byteAt {k : Nat} (lt : k < 8) := cellByte_beatCells off b lt
  have four : (List.range 4).map (fun i => cellByte (beatCells off b) (off + 4 + i)) =
      [enabledByte b 4, enabledByte b 5, enabledByte b 6, enabledByte b 7] := by
    have range : List.range 4 = [0, 1, 2, 3] := rfl
    simp only [range, List.map_cons, List.map_nil, Nat.add_assoc, byteAt, Nat.reduceAdd, Nat.reduceLT]
  have code : cellByte (beatCells off b) off = enabledByte b 0 := byteAt (k := 0) (by decide)
  unfold commandOf
  rw [four, append_four_bytes, code, byteAt (by decide), byteAt (by decide), byteAt (by decide)]

theorem consumedOf_beatCells (off : Nat) (b : Beat) :
    consumedOf off (beatCells off b) = (enabledByte b 0).toNat + 256 * (enabledByte b 1).toNat := by
  have first : cellByte (beatCells off b) off = enabledByte b 0 := cellByte_beatCells off b (k := 0) (by decide)
  unfold consumedOf
  rw [first, cellByte_beatCells off b (by decide)]
  simp [leNat]

/-! ### The stage -/

theorem find_eq_none {k : Nat} {cells : List Host.Cell} (other : ∀ x ∈ cells, x.1 ≠ k) : Cells.find k cells = none := by
  induction cells with
  | nil => rfl
  | cons c cells ih =>
    have ne : c.1 ≠ k := other c List.mem_cons_self
    obtain ⟨place, byte⟩ := c
    simp only [Cells.find, ne, if_false]
    exact ih fun x mem => other x (List.mem_cons_of_mem _ mem)

/-- With rising places no later byte of the list overwrites an earlier one. -/
theorem find_foldl_put {cells : List Host.Cell} (sorted : cells.Pairwise fun c c' => c.1 < c'.1) (m : List Host.Cell)
    (k : Nat) :
    Cells.find k (cells.foldl (fun m c => Cells.put c.1 c.2 m) m) =
      match Cells.find k cells with
      | some c => some c
      | none => Cells.find k m := by
  induction cells generalizing m with
  | nil => rfl
  | cons c cells ih =>
    obtain ⟨above, sorted⟩ := List.pairwise_cons.mp sorted
    rw [List.foldl_cons, ih sorted, Cells.find_put]
    by_cases here : c.1 = k
    · have later : Cells.find k cells = none := find_eq_none fun x mem => (here ▸ above x mem).ne'
      obtain ⟨place, byte⟩ := c
      obtain rfl : place = k := here
      rw [later]
      simp [Cells.find]
    · obtain ⟨place, byte⟩ := c
      have there : ¬ place = k := here
      simp [Cells.find, there, Ne.symm there]

theorem stageComplete_iff (stage : Option Stage) (e : EntryId) : stageComplete stage e = true ↔ allStaged stage e := by
  unfold stageComplete allStaged
  rw [entryPlace_eq]
  cases stage with
  | none => simp
  | some g =>
    have pos := words_pos e
    simp only [Bool.and_eq_true, decide_eq_true_eq, List.all_eq_true, List.mem_range, List.any_eq_true,
      Option.some.injEq, exists_eq_left']
    refine and_congr_right fun _ => ⟨fun h i lt => h i (by omega), fun h i lt => h i (by omega)⟩

theorem stagedCells_eq (stage : Option Stage) (e : EntryId) : stagedCells stage e = stagedOf stage e := by
  cases stage <;> rfl

theorem stageWord_cells (stage : Option Stage) (e : EntryId) (cells : List Host.Cell) :
    (stageWord stage e cells).cells = cells.foldl (fun m c => Cells.put c.1 c.2 m) (stagedOf stage e) := by
  cases stage <;> rfl

/-! ### One word -/

theorem copyWord_blank (x : Copied) (off : Nat) {b : Beat} (blank : b.enables = 0) : copyWord x off b = x := by
  unfold copyWord
  rw [wordCells_eq, (beatCells_eq_nil_iff off b).mpr blank]
  exact if_pos rfl

/-- An enabled word, by what it is in the page. -/
theorem copyWord_enabled (x : Copied) (off : Nat) {b : Beat} (enabled : b.enables ≠ 0) :
    (pageWord off = .noItem → copyWord x off b = x) ∧
    (pageWord off = .command → copyWord x off b =
      if b.enables.getLsbD 0 then { x with actions := x.actions ++ [.command (commandOf off (beatCells off b))] } else x) ∧
    (pageWord off = .consumed → copyWord x off b =
      if b.enables.getLsbD 0 || b.enables.getLsbD 1 then
        { x with actions := x.actions ++ [.consumed (consumedOf off (beatCells off b))] }
      else x) ∧
    ∀ e i, pageWord off = .entryWord e i → copyWord x off b =
      if e.words = 1 then { x with actions := x.actions ++ [.commit e true (beatCells off b)] }
      else if i + 1 < e.words then { x with stage := some (stageWord x.stage e (beatCells off b)) }
      else
        { stage := none
          actions := x.actions ++
            [.commit e (stageComplete x.stage e) (stagedCells x.stage e ++ beatCells off b)] } := by
  have some : ¬ beatCells off b = [] := fun none => enabled ((beatCells_eq_nil_iff off b).mp none)
  unfold copyWord
  rw [wordCells_eq]
  dsimp only
  rw [if_neg some]
  refine ⟨fun word => ?_, fun word => ?_, fun word => ?_, fun e i word => ?_⟩ <;> rw [word]

theorem wordCopied_copyWord (stage : Option Stage) {off : Nat} (aligned : off % 8 = 0) (b : Beat) :
    WordCopied stage off b (copyWord ⟨stage, []⟩ off b) := by
  refine ⟨fun blank => copyWord_blank _ off blank, fun place => ?command, fun place => ?consumed,
    fun notCommand notConsumed noEntry => ?noItem, fun e i enabled lt place => ?entry⟩
  case command =>
    subst place
    by_cases blank : b.enables = 0
    · rw [copyWord_blank _ _ blank, blank]
      rfl
    · rw [(copyWord_enabled _ _ blank).2.1 rfl, commandOf_beatCells]
      cases b.enables.getLsbD 0 <;> rfl
  case consumed =>
    subst place
    by_cases blank : b.enables = 0
    · rw [copyWord_blank _ _ blank, blank]
      rfl
    · rw [(copyWord_enabled _ _ blank).2.2.1 rfl, consumedOf_beatCells]
      cases b.enables.getLsbD 0 <;> cases b.enables.getLsbD 1 <;> rfl
  case noItem =>
    by_cases blank : b.enables = 0
    · exact copyWord_blank _ _ blank
    · refine (copyWord_enabled _ _ blank).1 ?_
      cases word : pageWord off with
      | noItem => rfl
      | command => exact absurd (offset_of_command aligned word) notCommand
      | consumed => exact absurd (offset_of_consumed aligned word) notConsumed
      | entryWord e i =>
        obtain ⟨lt, place⟩ := place_of_pageWord aligned word
        refine absurd ?_ (noEntry e i ?_) <;> rwa [entryPlace_eq]
  case entry =>
    rw [entryPlace_eq] at lt place ⊢
    dsimp only at lt place ⊢
    have word : pageWord off = .entryWord e i := place ▸ pageWord_of_place lt
    rw [(copyWord_enabled _ _ enabled).2.2.2 e i word]
    refine ⟨fun one => if_pos one, fun earlier => ?_, fun several last => ?_⟩
    · have several : ¬ e.words = 1 := by omega
      rw [if_neg several, if_pos earlier]
      refine ⟨rfl, _, rfl, rfl, fun k => ?_⟩
      rw [stageWord_cells]
      exact find_foldl_put (beatCells_sorted off b) _ k
    · have notOne : ¬ e.words = 1 := by omega
      have notEarlier : ¬ i + 1 < e.words := by omega
      rw [if_neg notOne, if_neg notEarlier]
      refine ⟨stageComplete stage e, stageComplete_iff stage e, ?_⟩
      rw [← stagedCells_eq]
      rfl

/-! ### The words of a write -/

/-- The actions made before stand in front. -/
theorem copyWord_prefix (stage : Option Stage) (made : List Action) (off : Nat) (b : Beat) :
    copyWord ⟨stage, made⟩ off b =
      ⟨(copyWord ⟨stage, []⟩ off b).stage, made ++ (copyWord ⟨stage, []⟩ off b).actions⟩ := by
  by_cases blank : b.enables = 0
  · rw [copyWord_blank _ _ blank, copyWord_blank _ _ blank, List.append_nil]
  · obtain ⟨noItem, command, consumed, entry⟩ := copyWord_enabled ⟨stage, made⟩ off blank
    obtain ⟨noItem', command', consumed', entry'⟩ := copyWord_enabled ⟨stage, []⟩ off blank
    cases word : pageWord off with
    | noItem => rw [noItem word, noItem' word, List.append_nil]
    | command =>
      rw [command word, command' word]
      split <;> simp
    | consumed =>
      rw [consumed word, consumed' word]
      split <;> simp
    | entryWord e i =>
      rw [entry e i word, entry' e i word]
      split_ifs <;> simp

theorem copyWords_prefix (stage : Option Stage) (made : List Action) (off : Nat) (beats : List Beat) :
    copyWords ⟨stage, made⟩ off beats =
      ⟨(copyWords ⟨stage, []⟩ off beats).stage, made ++ (copyWords ⟨stage, []⟩ off beats).actions⟩ := by
  induction beats generalizing stage made off with
  | nil => simp [copyWords]
  | cons b more ih =>
    simp only [copyWords]
    rw [copyWord_prefix stage made, ih, ih (copyWord ⟨stage, []⟩ off b).stage (copyWord ⟨stage, []⟩ off b).actions]
    simp

theorem pageOffset_next {a : Addr} {n : Nat} (form : InForm a (n + 2)) : pageOffset (a + 8) = pageOffset a + 8 := by
  obtain ⟨-, -, aligned, inside⟩ := form
  unfold pageOffset
  have bound := a.isLt
  have next : (a + 8).toNat = (a.toNat + 8) % 2 ^ 28 := by
    rw [BitVec.toNat_add]
    rfl
  omega

theorem copyOf_cons (s : State) {a : Addr} {b : Beat} {more : List Beat} (form : InForm a (b :: more).length) :
    s.copyOf a (b :: more) =
      ⟨(({ s with stage := (s.copyOf a [b]).stage } : State).copyOf (a + 8) more).stage,
        (s.copyOf a [b]).actions ++
          (({ s with stage := (s.copyOf a [b]).stage } : State).copyOf (a + 8) more).actions⟩ := by
  unfold State.copyOf
  dsimp only [copyWords]
  rw [copyWords_prefix _ (copyWord ⟨s.stage, []⟩ (pageOffset a) b).actions]
  cases more with
  | nil => rfl
  | cons c more => rw [pageOffset_next form]

/-- Settles O10: the FIFO's room decides on the hold, the entry stage on the commit. -/
theorem takePageWrite : Obligations.TakePageWrite := by
  refine ⟨fun s a beats form taken enabled untouched inside => ?_, fun s a b aligned => ?_, ?_⟩
  · have page : (s.atPort (.write a beats)).takeWrite a beats (enabledBytes a beats) =
        (s.atPort (.write a beats)).takePageWrite a beats := takeWrite_of_inPage untouched inside
    rw [exec_take taken, classify_write form, if_neg enabled, page]
    have copy : (s.atPort (.write a beats)).copyOf a beats = s.copyOf a beats := rfl
    unfold State.takePageWrite
    rw [copy]
    dsimp only
    by_cases none : (s.copyOf a beats).actions = []
    · rw [if_neg fun held => held.1 none, if_pos none]
      unfold State.takeCopy
      rw [none]
      rfl
    · rw [if_neg none]
      by_cases room : s.fifo.length < 4
      · rw [if_neg fun held => Nat.not_le.mpr room held.2, if_pos room]
        unfold State.takeCopy
        rw [if_neg none]
        rfl
      · rw [if_pos ⟨none, Nat.not_lt.mp room⟩, if_neg room]
        rfl
  · have offset : pageOffset a % 8 = 0 := by
      unfold pageOffset
      omega
    exact wordCopied_copyWord s.stage offset b
  · rintro s a b more x y form rfl rfl
    exact copyOf_cons s form

end Sys2Proof.Machine
end

section
/-!
PROOFS. Window writes that open nothing (R36, R38, R40), and what the expiry of a hold settles (R12, R24, R50, R51): the OPEN
story abandoned, the write absorbed, or its item dropped.
-/

namespace Sys2Proof.Machine

open Sys2Proof.Claims

/-! ### A window write that is taken -/

theorem exec_take_window {s : State} {w : WindowId} {a : Addr} {beats : List Beat} {bytes : List (Addr × Byte)}
    (h : IntakeTaken s w a beats bytes) :
    exec (.takeUpstreamRequest (.write a beats)) s = .next ((s.atPort (.write a beats)).takeWindowWrite w a beats) := by
  obtain ⟨form, taken, enabled, untouched, outside, window, -⟩ := h
  have windowWrite : (s.atPort (.write a beats)).takeWrite a beats (enabledBytes a beats) =
      (s.atPort (.write a beats)).takeWindowWrite w a beats :=
    takeWrite_of_enabledWindow (s := s.atPort _) untouched outside window
  rw [exec_take taken, classify_write form, if_neg enabled, windowWrite]

theorem guard_eq_none {s : State} {w : WindowId} (empty : (s.window w).stories = []) : s.guard w = none := by
  unfold State.guard
  rw [empty]
  rfl

theorem noRoom_eq_false {s : State} {w : WindowId} (empty : (s.window w).stories = []) (bytes : List (Addr × Byte)) :
    s.noRoom w bytes = false := by
  unfold State.noRoom
  rw [guard_eq_none empty]

/-- A hunting parser passes over bytes that are not START (R40). -/
theorem parseBytes_hunt {s : State} {w : WindowId} {bytes : List (Addr × Byte)} (hunts : (s.window w).parse = .hunt)
    (noStart : ∀ b ∈ bytes, b.2 ≠ 0x01) : State.parseBytes w bytes s = .ok s := by
  induction bytes with
  | nil => rfl
  | cons b rest ih =>
    have other : b.2 ≠ houseStart := noStart b List.mem_cons_self
    have passed : s.parseByte w b.1 b.2 = some s := by
      unfold State.parseByte
      rw [if_neg other, hunts]
    unfold State.parseBytes
    rw [passed]
    exact ih fun x mem => noStart x (List.mem_cons_of_mem _ mem)

/-- Settles O11: an empty list has room, and a hunting parser reads on without a START. -/
theorem takeIgnoredWindowWrite : Obligations.TakeIgnoredWindowWrite := by
  intro s a beats w form taken enabled untouched outside window empty hunts noStart inSequence
  rw [exec_take_window ⟨form, taken, enabled, untouched, outside, window, rfl⟩]
  let t := s.atPort (.write a beats)
  have intake : t.intakeWrite w a beats =
      .forwarded (beats.map (s.translateBeat w))
        (t.moveIntake w (s.afterLast w (enabledBytes a (beats.map (s.translateBeat w))))) := by
    have room := noRoom_eq_false (s := t) empty (enabledBytes a (beats.map (t.translateBeat w)))
    have parsed := parseBytes_hunt (s := t) hunts noStart
    have sequence : t.inSequence w (enabledBytes a (beats.map (s.translateBeat w))) = true := inSequence
    have translate : t.translateBeat w = s.translateBeat w := rfl
    unfold State.intakeWrite
    dsimp only
    rw [translate] at room ⊢
    rw [room, sequence, parsed]
    rfl
  unfold State.takeWindowWrite
  rw [intake]
  rfl

/-! ### The end of a FIFO_FULL hold -/

theorem beatBytes_ne_nil {b : Beat} (enabled : b.enables ≠ 0) : ∃ k < 8, b.enables.getLsbD k = true := by
  by_contra! none
  exact enabled ((enables_eq_zero_iff b).mpr fun k lt => by simpa using none k lt)

/-- The enabled bytes of a beat at a place in its write. -/
def bytesOfBeat (a : Addr) (b : Beat) (i : Nat) : List (Addr × Byte) :=
  (List.range 8).filterMap fun k =>
    if b.enables.getLsbD k then some (a + BitVec.ofNat 28 (8 * i + k), beatByte b.data k) else none

theorem enabledBytes_eq (a : Addr) (beats : List Beat) :
    enabledBytes a beats = beats.zipIdx.flatMap fun x => bytesOfBeat a x.1 x.2 := rfl

theorem bytesOfBeat_eq_nil {a : Addr} {b : Beat} {i : Nat} (blank : b.enables = 0) : bytesOfBeat a b i = [] := by
  unfold bytesOfBeat
  rw [blank]
  simp

theorem bytesOfBeat_ne_nil {a : Addr} {b : Beat} {i : Nat} (enabled : b.enables ≠ 0) : bytesOfBeat a b i ≠ [] := by
  obtain ⟨k, lt, mark⟩ := beatBytes_ne_nil enabled
  refine List.ne_nil_of_mem (a := (a + BitVec.ofNat 28 (8 * i + k), beatByte b.data k)) (List.mem_filterMap.mpr ?_)
  exact ⟨k, List.mem_range.mpr lt, if_pos mark⟩

theorem mem_bytesOfBeat {a : Addr} {b : Beat} {i : Nat} {x : Addr × Byte} (mem : x ∈ bytesOfBeat a b i) :
    ∃ k < 8, x.1 = a + BitVec.ofNat 28 (8 * i + k) := by
  obtain ⟨k, lt, some⟩ := List.mem_filterMap.mp mem
  refine ⟨k, List.mem_range.mp lt, ?_⟩
  split at some
  · exact (congrArg Prod.fst (Option.some.inj some)).symm
  · cases some

/-- The first enabled byte of a write lies in its first beat that enables one. -/
theorem enabledBytes_first {a : Addr} {blank more : List Beat} {b : Beat} (none : ∀ x ∈ blank, x.enables = 0)
    (enabled : b.enables ≠ 0) :
    ∃ k < 8, ∃ x rest, enabledBytes a (blank ++ b :: more) = x :: rest ∧
      x.1 = a + BitVec.ofNat 28 (8 * blank.length + k) := by
  have front : (blank.zipIdx.flatMap fun x => bytesOfBeat a x.1 x.2) = [] := by
    refine List.flatMap_eq_nil_iff.mpr fun x mem => bytesOfBeat_eq_nil (none x.1 ?_)
    exact List.fst_mem_of_mem_zipIdx mem
  obtain ⟨x, rest, first⟩ := List.exists_cons_of_ne_nil (bytesOfBeat_ne_nil (a := a) (i := blank.length) enabled)
  obtain ⟨k, lt, place⟩ := mem_bytesOfBeat (first ▸ List.mem_cons_self : x ∈ bytesOfBeat a b blank.length)
  have split : enabledBytes a (blank ++ b :: more) =
      bytesOfBeat a b blank.length ++ (more.zipIdx (blank.length + 1)).flatMap fun x => bytesOfBeat a x.1 x.2 := by
    rw [enabledBytes_eq, List.zipIdx_append, List.flatMap_append, front, List.nil_append, List.zipIdx_cons,
      List.flatMap_cons, Nat.zero_add]
  exact ⟨k, lt, x, _, split.trans (congrArg (· ++ _) first), place⟩

theorem firstWordOffset_eq {a : Addr} {blank more : List Beat} {b : Beat} (aligned : a.toNat % 8 = 0)
    (none : ∀ x ∈ blank, x.enables = 0) (enabled : b.enables ≠ 0) :
    firstWordOffset (enabledBytes a (blank ++ b :: more)) = (a.toNat + 8 * blank.length) % 4096 := by
  obtain ⟨k, lt, x, rest, bytes, place⟩ := enabledBytes_first (a := a) (more := more) none enabled
  rw [bytes]
  unfold firstWordOffset pageOffset
  dsimp only
  rw [place, BitVec.toNat_add, BitVec.toNat_ofNat]
  omega

theorem droppedCode_eq {s : State} {bytes : List (Addr × Byte)} {code : Byte}
    (first : ∀ x ∈ bytes, x.1.toNat = 4096 * s.straps.toNat + 0xE00 → code = x.2)
    (absent : (∀ x ∈ bytes, x.1.toNat ≠ 4096 * s.straps.toNat + 0xE00) → code = 0xFF) : s.droppedCode bytes = code := by
  have base : s.pageBase = 4096 * s.straps.toNat := Nat.mul_comm _ _
  unfold State.droppedCode
  rw [base]
  split
  next b found =>
    have place := List.find?_some found
    exact (first b (List.mem_of_find?_eq_some found) (of_decide_eq_true place)).symm
  next notFound =>
    refine (absent fun x mem place => ?_).symm
    exact List.find?_eq_none.mp notFound x mem (decide_eq_true place)

theorem holdExpiry_of_hold {s : State} {h : Hold} {p : PortRequest} (hold : s.hold = some h) (port : s.port = some p) :
    s.holdExpiry = s.expireHold h p := by
  unfold State.holdExpiry
  rw [hold, port]

/-- Settles O13: the dropped item's record, and the request whose outcome is fixed. -/
theorem holdExpiryFifoFull : Obligations.HoldExpiryFifoFull := by
  refine ⟨fun s none => congrArg Host.Outcome.next ?_, ?_, ?_⟩
  · unfold State.holdExpiry
    rw [none]
  · intro s limit elapsed a blank more b fixed code hold port form none enabled first absent
    refine congrArg Host.Outcome.next ((holdExpiry_of_hold hold port).trans ?_)
    unfold State.expireHold State.expireFifo
    have offset := firstWordOffset_eq (more := more) form.2.2.1 none enabled
    have dropped := droppedCode_eq (s := s) first absent
    dsimp only [requestBytes]
    rw [offset]
    exact congrArg (fun code => (_ : State).refusePlain code .fifoFull _) dropped
  · intro s r stands noHold room wins
    exact congrArg Host.Outcome.next (takeUpstream_of_standing stands noHold room wins)

/-! ### Records -/

theorem reportPlain_eq (s : State) (k : ReportKind) (subject : Byte) (detail : List Byte) :
    s.reportPlain k subject detail = s.report (plain s k subject detail) := rfl

theorem reportStory_eq (s : State) (k : ReportKind) (subject : Byte) (h : HandleId) (detail : List Byte) :
    s.reportStory k subject h detail = s.report (naming s k subject h detail) := rfl

theorem plain_congr {s t : State} (clock : t.clock = s.clock) (k : ReportKind) (subject : Byte) (detail : List Byte) :
    plain t k subject detail = plain s k subject detail := by
  unfold plain
  rw [clock]

/-! ### The OPEN story abandoned -/

theorem clearTableHold_of_none {s : State} (none : s.hold = none) : s.clearTableHold = s := by
  unfold State.clearTableHold
  rw [none]

theorem freeStory_of_none {s : State} (none : s.hold = none) (h : HandleId) :
    s.freeStory h =
      (({ s with completion := s.completion.erase h } : State).onStory h Story.cleared).onWindow (s.story h).window
        fun k => { k with stories := k.stories.erase h } := by
  unfold State.freeStory
  exact clearTableHold_of_none none

theorem abandonOpen_of_none {s : State} {w : WindowId} (none : s.openStory w = none) (reason : AbandonReason) :
    s.abandonOpen w reason = s := by
  unfold State.abandonOpen
  rw [none]

theorem report_completion_update (s : State) (r : Record) (l : List HandleId) :
    { s.report r with completion := l } = ({ s with completion := l } : State).report r := by
  rw [report_eq_onWriter, report_eq_onWriter]
  rfl

/-- Without a hold to clear, abandoning is what `abandoned` says, up to the parse state that follows (R46, R63). -/
theorem setParse_abandonOpen {s : State} {w : WindowId} {h : HandleId} (isOpen : s.openStory w = some h)
    (window : (s.story h).window = w) (noHold : s.hold = none) (reason : AbandonReason) (parse : ParseState) :
    (s.abandonOpen w reason).setParse w parse = abandoned s w h reason.code parse := by
  unfold State.abandonOpen
  rw [isOpen]
  dsimp only
  rw [reportStory_eq]
  generalize record : naming s .storyAbandoned _ h _ = r
  have freed : (s.report r).freeStory h =
      ((({ s with completion := s.completion.erase h } : State).report r).onStory h fun r =>
        { generation := r.generation }).onWindow w fun k => { k with stories := k.stories.erase h } := by
    rw [freeStory_of_none ((report_hold s r).trans noHold), story_report, window, report_completion,
      report_completion_update]
    rfl
  unfold State.dropGathered State.setParse abandoned
  rw [freed, onWindow_onWindow, onWindow_onWindow, ← record]
  rfl

theorem abandoned_clock (s : State) (w : WindowId) (h : HandleId) (reason : Nat) (parse : ParseState) :
    (abandoned s w h reason parse).clock = s.clock := by
  unfold abandoned
  simp

/-- What absorbing a request leaves of the part. -/
theorem completedHere_same (s : State) (access : Access) (c : Completion) (w : WindowId) :
    (completedHere s access c).hold = s.hold ∧ (completedHere s access c).openStory w = s.openStory w ∧
      (completedHere s access c).clock = s.clock ∧ (∀ h, (completedHere s access c).story h = s.story h) ∧
      ∀ bytes, (completedHere s access c).afterLast w bytes = s.afterLast w bytes := by
  unfold completedHere
  split <;> exact ⟨rfl, rfl, rfl, fun _ => rfl, fun _ => rfl⟩

/-- The hold's write absorbed, then the OPEN story abandoned if there is one; `u` is the state that O14 names. -/
theorem absorb_abandonOpen {s u : State} {w : WindowId} {r : BusRequest} {reason : AbandonReason} {parse : ParseState}
    (noStory : s.openStory w = none →
      u = (completedHere { s with hold := none } (accessOf r) ⟨.ok, []⟩).onWindow w fun k => { k with parse := parse })
    (story : ∀ h, s.openStory w = some h → (s.story h).window = w ∧
      u = abandoned (completedHere { s with hold := none } (accessOf r) ⟨.ok, []⟩) w h reason.code parse) :
    ((({ s with hold := none } : State).absorb r).abandonOpen w reason).setParse w parse = u ∧ u.clock = s.clock := by
  obtain ⟨noHold, isOpen, clock, stories, -⟩ := completedHere_same { s with hold := none } (accessOf r) ⟨.ok, []⟩ w
  have absorbed : ({ s with hold := none } : State).absorb r =
      completedHere { s with hold := none } (accessOf r) ⟨.ok, []⟩ := rfl
  rw [absorbed]
  cases e : s.openStory w with
  | none =>
    rw [abandonOpen_of_none (isOpen.trans e), noStory e]
    exact ⟨rfl, clock⟩
  | some h =>
    obtain ⟨window, rfl⟩ := story h e
    have window' := (congrArg Story.window (stories h)).trans window
    exact ⟨setParse_abandonOpen (isOpen.trans e) window' noHold reason parse, (abandoned_clock _ _ _ _ _).trans clock⟩

/-- Settles O14: the write is absorbed first, so that no hold stands when the story is abandoned. -/
theorem holdExpiryAbsorbs : Obligations.HoldExpiryAbsorbs := by
  refine ⟨?ring, ?table⟩
  case ring =>
    intro s u w limit elapsed p hold port noStory story
    obtain ⟨settled, clock⟩ := absorb_abandonOpen (reason := .windowFull) noStory story
    refine congrArg Host.Outcome.next ((holdExpiry_of_hold hold port).trans ?_)
    unfold State.expireHold State.expireRing
    dsimp only
    rw [settled, reportPlain_eq, plain_congr clock, List.head?_map]
    rfl
  case table =>
    intro s u w start limit elapsed p hold port noStory story
    obtain ⟨settled, clock⟩ := absorb_abandonOpen (reason := .tableFull) noStory story
    refine congrArg Host.Outcome.next ((holdExpiry_of_hold hold port).trans ?_)
    have swap (v : State) (x : Addr) :
        (v.moveIntake w x).setParse w .skip = (v.setParse w .skip).onWindow w fun k => { k with intake := x } := by
      unfold State.moveIntake State.setParse
      rw [onWindow_onWindow, onWindow_onWindow]
    obtain ⟨-, -, -, -, afterLast⟩ := completedHere_same { s with hold := none } (accessOf p.request) ⟨.ok, []⟩ w
    have after : (({ s with hold := none } : State).absorb p.request).afterLast w (requestBytes p.request) =
        s.afterLast w (requestBytes p.request) := afterLast _
    unfold State.expireHold State.expireTable
    dsimp only
    rw [swap, settled, after, reportPlain_eq,
      plain_congr (t := u.onWindow w fun k => { k with intake := s.afterLast w (requestBytes p.request) }) clock]
    rfl

end Sys2Proof.Machine
end

section
/-!
PROOFS. The completion queue (R8 to R10), returned own writes (R190 to R193), the arbiter and its grants (R14 to R16, R130 to
R133, R190, R193).
-/

namespace Sys2Proof.Machine

open Sys2Proof.Claims

/-! ### The oldest entry of a kind -/

theorem find?_zipIdx_eq_none {α : Type} {p : α → Bool} {l : List α} (no : ∀ x ∈ l, p x = false) (k : Nat) :
    (l.zipIdx k).find? (fun x => p x.1) = none := by
  refine List.find?_eq_none.mpr fun x mem => ?_
  rw [no x.1 (List.fst_mem_of_mem_zipIdx mem)]
  exact Bool.false_ne_true

theorem find?_zipIdx_append_cons {α : Type} {p : α → Bool} {older newer : List α} {e : α}
    (no : ∀ x ∈ older, p x = false) (yes : p e = true) :
    ((older ++ e :: newer).zipIdx.find? fun x => p x.1) = some (e, older.length) := by
  rw [List.zipIdx_append, List.find?_append, find?_zipIdx_eq_none no, Option.none_or, List.zipIdx_cons, Nat.zero_add]
  exact List.find?_cons_of_pos yes

theorem eraseIdx_append_cons {α : Type} (older newer : List α) (e : α) :
    (older ++ e :: newer).eraseIdx older.length = older ++ newer := by
  rw [List.eraseIdx_append_of_length_le (Nat.le_refl _), Nat.sub_self, List.eraseIdx_cons_zero]

theorem set_append_cons {α : Type} (older newer : List α) (e x : α) :
    (older ++ e :: newer).set older.length x = older ++ x :: newer := by
  rw [List.set_append_right _ _ (Nat.le_refl _), Nat.sub_self, List.set_cons_zero]

/-! ### Returns upstream (R10) -/

theorem returnUpstream_of_oldest {s : State} {older newer : List QueueEntry} {e : QueueEntry}
    (entries : s.entries = older ++ e :: newer) (own : ∀ x ∈ older, x.owner ≠ .upstream) (owner : e.owner = .upstream) :
    s.returnUpstream = e.result.elim s fun c => { s with entries := older ++ newer, upBus := some c } := by
  have found := find?_zipIdx_append_cons (p := fun x : QueueEntry => decide (x.owner = .upstream)) (newer := newer)
    (fun x mem => decide_eq_false (own x mem)) (decide_eq_true owner)
  unfold State.returnUpstream
  rw [entries, found]
  dsimp only
  rw [eraseIdx_append_cons]
  cases e.result <;> rfl

/-- Settles O15: the first UPSTREAM entry is the only one looked at. -/
theorem upstreamReturnsInOrder : Obligations.UpstreamReturnsInOrder := by
  refine ⟨fun s older newer e c entries own owner result => congrArg Host.Outcome.next ?_,
    fun s older newer e entries own owner result => congrArg Host.Outcome.next ?_,
    fun s own => congrArg Host.Outcome.next ?_⟩
  · rw [returnUpstream_of_oldest entries own owner, result, Option.elim_some]
  · rw [returnUpstream_of_oldest entries own owner, result, Option.elim_none]
  · unfold State.returnUpstream
    rw [find?_zipIdx_eq_none (p := fun x : QueueEntry => decide (x.owner = .upstream))
      fun x mem => decide_eq_false (own x mem)]

/-! ### Matching a completion (R9) -/

/-- An entry stands in the queue as the oldest one that awaits a completion. -/
structure Awaited (s : State) (older newer : List QueueEntry) (e : QueueEntry) : Prop where
  entries : s.entries = older ++ e :: newer
  settled : ∀ x ∈ older, x.result.isSome ∨ x.isLocal = true
  waiting : e.result = none
  notLocal : e.isLocal = false

theorem awaits_eq_false {x : QueueEntry} (h : x.result.isSome ∨ x.isLocal = true) : x.awaits = false := by
  unfold QueueEntry.awaits
  rcases h with done | here
  · rw [Option.isNone_eq_false_iff.mpr done, Bool.false_and]
  · rw [here]
    exact Bool.and_false _

theorem oldestWaiting_eq {s : State} {older newer : List QueueEntry} {e : QueueEntry} (h : Awaited s older newer e) :
    s.oldestWaiting = some (older.length, e) := by
  have waits : e.awaits = true := by
    unfold QueueEntry.awaits
    rw [h.waiting, h.notLocal]
    rfl
  unfold State.oldestWaiting
  rw [h.entries, find?_zipIdx_append_cons (fun x mem => awaits_eq_false (h.settled x mem)) waits]
  rfl

theorem complete_upstream {s : State} {older newer : List QueueEntry} {e : QueueEntry} (h : Awaited s older newer e)
    (owner : e.owner = .upstream) (st : Status) (data : List BeatData) :
    s.complete st data =
      { s with entries := older ++ { e with result := some ⟨st, if e.access = .read then data else []⟩ } :: newer } := by
  unfold State.complete
  rw [oldestWaiting_eq h]
  dsimp only
  rw [owner]
  dsimp only
  rw [h.entries, set_append_cons, ← owner]
  cases e.access <;> rfl

/-- An entry of the part's own leaves the queue, and its owner deals with the completion. -/
theorem complete_own {s : State} {older newer : List QueueEntry} {e : QueueEntry} (h : Awaited s older newer e)
    (st : Status) (data : List BeatData) :
    (∀ d epoch, e.owner = .fetch d epoch →
      s.complete st data = ({ s with entries := older ++ newer } : State).fetchReturn d epoch st data) ∧
    (e.owner = .report ∨ e.owner = .snapshot →
      s.complete st data = ({ s with entries := older ++ newer } : State).writerReturn st) := by
  unfold State.complete
  rw [oldestWaiting_eq h]
  dsimp only
  rw [h.entries, eraseIdx_append_cons]
  refine ⟨fun d epoch owner => ?_, fun owner => ?_⟩
  · rw [owner]
  · rcases owner with owner | owner <;> rw [owner]

/-- Settles O16: the match is by order alone. -/
theorem completionMatchesOldestWaiting : Obligations.CompletionMatchesOldestWaiting := by
  refine ⟨fun s older newer e st data entries settled waiting notLocal owner => ?_, fun s st data settled => ?_⟩
  · exact congrArg Host.Outcome.next (complete_upstream ⟨entries, settled, waiting, notLocal⟩ owner st data)
  · have none : s.oldestWaiting = none := by
      unfold State.oldestWaiting
      rw [find?_zipIdx_eq_none fun x mem => awaits_eq_false (settled x mem)]
      rfl
    refine congrArg Host.Outcome.next ?_
    unfold State.complete
    rw [none]

/-! ### Own writes returned (R190 to R193) -/

theorem noteStatus_eq (s : State) (st : Status) :
    s.noteStatus st = s.onWriter fun w =>
      { w with storeFault := w.storeFault || decide (st = .error), alert := w.alert || decide (st = .error) } := by
  cases st <;> simp [State.noteStatus, State.onWriter]

theorem recordWritten_eq (s : State) (kind : ReportKind) (st : Status) :
    s.recordWritten kind st = s.onWriter fun w =>
      { w with
        outstanding := none
        writeIndex := (w.writeIndex + 1) % s.ringSize
        storeFault := w.storeFault || decide (st = .error)
        alert := w.alert || decide (st = .error) || (s.kindEnabled kind && decide (11 ≤ kind.code))
        notice := w.notice || (s.kindEnabled kind && decide (kind.code ≤ 10)) } := by
  unfold State.recordWritten
  dsimp only
  rw [noteStatus_eq, setLine_eq, not_isAlert_eq]
  unfold State.onWriter ReportKind.isAlert
  dsimp only
  rw [Bool.or_right_comm]
  rfl

/-- Settles O18: an abandoned write is told by its mark, any other counts as written. -/
theorem reportWriteCompletes : Obligations.ReportWriteCompletes := by
  intro s older newer e kind abandoned st data entries settled waiting notLocal owner outstanding
  have returned := (complete_own ⟨entries, settled, waiting, notLocal⟩ st data).2 (.inl owner)
  refine ⟨_, rfl, fun gone => ?_, fun stands => ?_⟩
  · rw [returned]
    unfold State.writerReturn
    dsimp only
    rw [outstanding, gone]
    rfl
  · rw [returned]
    unfold State.writerReturn
    dsimp only
    rw [outstanding, stands]
    exact recordWritten_eq _ kind st

theorem byteOf_bitOf (b : Bool) : byteOf (bitOf b) = if b then 1 else 0 := by
  cases b <;> rfl

/-- Settles O19: only the eighth write ends the snapshot. -/
theorem snapshotWriteCompletes : Obligations.SnapshotWriteCompletes := by
  intro s older newer e x st data entries settled waiting notLocal owner outstanding snapshot
  have returned := (complete_own ⟨entries, settled, waiting, notLocal⟩ st data).2 (.inr owner)
  refine ⟨_, rfl, congrArg Host.Outcome.next (returned.trans ?_)⟩
  unfold State.writerReturn
  dsimp only
  rw [outstanding]
  dsimp only
  unfold State.blockWritten
  rw [noteStatus_eq]
  dsimp only [State.onWriter]
  rw [snapshot, byteOf_bitOf]
  rfl

/-! ### Grants -/

theorem offersBlock_eq_true {s : State} {x : Snapshot} (none : s.writer.outstanding = none)
    (snapshot : s.writer.snapshot = some x) (more : x.issued < 8) : s.offersBlock = true := by
  unfold State.offersBlock
  rw [none, snapshot]
  exact decide_eq_true more

/-- Settles O22: the address and the bytes are those of the next of the eight writes. -/
theorem snapshotWriteGranted : Obligations.SnapshotWriteGranted := by
  intro s x granted none snapshot more
  refine congrArg Host.Outcome.next ?_
  unfold State.grantBlock
  rw [if_pos ⟨granted, offersBlock_eq_true none snapshot more⟩, snapshot]
  rfl

/-- Settles O23: of the three claims each is the others' refusal, as the last own source decides. -/
theorem arbiterGrantsOne : Obligations.ArbiterGrantsOne := by
  intro s
  have source : ∀ o : OwnSource, (o ≠ .report ↔ o = .fetch) ∧ (o ≠ .fetch ↔ o = .report) := by
    intro o
    cases o <;> simp
  have writer : s.grantsWriter = true ↔ s.grantsUpstream = false ∧ s.writerReady = true ∧
      (s.fetchReady = true → s.lastOwn = .fetch) := by
    unfold State.grantsWriter
    rw [← (source s.lastOwn).1]
    cases s.fetchReady <;> simp [and_assoc]
  have fetch : s.grantsFetch = true ↔ s.grantsUpstream = false ∧ s.fetchReady = true ∧
      (s.writerReady = true → s.lastOwn = .report) := by
    unfold State.grantsFetch
    rw [← (source s.lastOwn).2]
    cases s.writerReady <;> simp [and_assoc]
  refine ⟨grantsUpstream_eq_true_iff s, writer, fetch, ?_, fun ready => ?_⟩
  · rw [writer, fetch]
    rintro ⟨⟨-, writerReady, last⟩, -, fetchReady, last'⟩
    exact absurd ((last fetchReady).symm.trans (last' writerReady)) (by decide)
  · have own : s.ownReady = (s.writerReady || s.fetchReady) := rfl
    rw [writer, fetch]
    cases upstream : s.grantsUpstream
    case true => exact .inl rfl
    case false =>
      have isReady : s.ownReady = true := by
        refine ready.elim (fun waits => ?_) id
        by_contra idle
        have granted := (grantsUpstream_eq_true_iff s).mpr ⟨waits, .inr (by simpa using idle)⟩
        simp [upstream] at granted
      rw [own] at isReady
      cases w : s.writerReady <;> cases f : s.fetchReady <;> cases last : s.lastOwn <;> simp_all

end Sys2Proof.Machine
end

section
/-!
PROOFS. The refusals common to all commands (R32), the consumed index (R191), the switches of a desk (R84, R98, R99), the
reserve-low latch (R52), and the commands that change one field: CLEAR_WINDOW (R55), SET_CLOCK (R195), CLEAR_LINE (R192).
-/

namespace Sys2Proof.Machine

open Sys2Proof.Claims

/-! ### What a number names -/

theorem deskOfNumber_of_target {w : CommandWord} {d : DeskId} (target : TargetDesk w d) :
    deskOfNumber w.target.toNat = some d := by
  unfold TargetDesk at target
  have range : 1 ≤ w.target.toNat ∧ w.target.toNat ≤ 24 := by omega
  unfold deskOfNumber
  rw [dif_pos range]
  exact congrArg Option.some (Fin.ext (by simp only; omega))

theorem deskOfNumber_eq_none {n : Nat} (out : ¬ (1 ≤ n ∧ n ≤ 24)) : deskOfNumber n = none := dif_neg out

theorem trunkOf_val {n : Nat} {u : TrunkId} (e : n = u.val) : trunkOf n = some u := by
  subst e
  exact dif_pos u.isLt

theorem windowOf_val {n : Nat} {v : WindowId} (e : n = v.val) : windowOf n = some v := by
  subst e
  exact dif_pos v.isLt

theorem handleOf_val {n : Nat} {h : HandleId} (e : n = h.val) : handleOf n = some h := by
  subst e
  exact dif_pos h.isLt

section

variable {w : CommandWord}

theorem withDesk_of_target {d : DeskId} (f : DeskId → Checked) (target : TargetDesk w d) : withDesk w f = f d := by
  unfold withDesk
  rw [deskOfNumber_of_target target]

theorem withTrunk_of_target {u : TrunkId} (f : TrunkId → Checked) (target : w.target.toNat = u.val) :
    withTrunk w f = f u := by
  unfold withTrunk
  rw [trunkOf_val target]

theorem withWindow_of_target {v : WindowId} (f : WindowId → Checked) (target : w.target.toNat = v.val) :
    withWindow w f = f v := by
  unfold withWindow
  rw [windowOf_val target]

theorem withDesk_out (f : DeskId → Checked) (out : ¬ (1 ≤ w.target.toNat ∧ w.target.toNat ≤ 24)) :
    withDesk w f = .error .badArgument := by
  unfold withDesk
  rw [deskOfNumber_eq_none out]

theorem withTrunk_out (f : TrunkId → Checked) (out : ¬ w.target.toNat ≤ 3) : withTrunk w f = .error .badArgument := by
  unfold withTrunk trunkOf
  rw [dif_neg (by omega)]

theorem withWindow_out (f : WindowId → Checked) (out : ¬ w.target.toNat ≤ 7) : withWindow w f = .error .badArgument := by
  unfold withWindow windowOf
  rw [dif_neg (by omega)]

theorem withStory_out (s : State) (f : HandleId → Checked) (out : ¬ w.handle.toNat ≤ 127) :
    s.withStory w f = .error .badArgument := by
  unfold State.withStory handleOf
  rw [dif_neg (by omega)]

theorem withStory_of_handle (s : State) {h : HandleId} (f : HandleId → Checked) (handle : w.handle.toNat = h.val) :
    s.withStory w f = if (s.story h).generation = w.generation then f h else .error .stale := by
  unfold State.withStory
  rw [handleOf_val handle]

theorem withStory_current (s : State) {h : HandleId} (f : HandleId → Checked) (handle : w.handle.toNat = h.val)
    (same : (s.story h).generation = w.generation) : s.withStory w f = f h := by
  rw [withStory_of_handle s f handle, if_pos same]

theorem withStory_stale (s : State) {h : HandleId} (f : HandleId → Checked) (handle : w.handle.toNat = h.val)
    (other : (s.story h).generation ≠ w.generation) : s.withStory w f = .error .stale := by
  rw [withStory_of_handle s f handle, if_neg other]

end

/-! ### The outcome of a command -/

section

variable {s : State} {w : CommandWord} {k : CommandKind} {more : List Action} (hd : Head s (.command w) more)
  (code : w.code = codeOf k) (yes : accepted k s.mode = true)
include hd code yes

theorem exec_performed {t : State} (ok : s.perform k w = .ok t) : exec (stepOf k) s = .next (itemDone more t) := by
  rw [exec_command code hd, command_ok code yes ok]

theorem exec_refused {reason : CommandReason} (bad : s.perform k w = .error reason) :
    exec (stepOf k) s = .next (itemDone more (s.report (refusal s w (byteOf reason.code) (ofStory k)))) := by
  have refused : s.command w = s.refuseCommand w reason := by
    unfold State.command
    simp only [code, commandKind_codeOf, acceptedIn_eq_accepted, yes, if_true, bad]
  rw [exec_command code hd, refused, refuseCommand_eq code]

end

/-! ### The refusals of every command (R32) -/

theorem commandKind_eq_none {code : Byte} (unknown : ∀ k, code ≠ codeOf k) : commandKind code = none := by
  have known : ∀ c : Byte, commandKind c = none ∨ ∃ k ∈ [CommandKind.go, .softReset, .release, .kill, .openDesk,
      .closeDesk, .holdDesk, .freeDesk, .trunkUp, .trunkDown, .clearTrunkErrors, .enableWindow, .disableWindow,
      .clearWindow, .setClock, .snapshot, .clearLine], c = codeOf k := by decide +kernel
  rcases known code with none | ⟨k, -, e⟩
  · exact none
  · exact absurd e (unknown k)

/-- A target or argument out of its range is what a command's owner checks first. -/
theorem perform_out_of_range {s : State} {w : CommandWord} {k : CommandKind} (out : ¬ InRange s w k) :
    s.perform k w = .error .badArgument := by
  cases k <;> simp only [InRange, not_true_eq_false] at out
  case release => exact withStory_out s _ out
  case kill => exact withStory_out s _ out
  case openDesk => exact withDesk_out _ out
  case closeDesk => exact withDesk_out _ out
  case holdDesk => exact withDesk_out _ out
  case freeDesk => exact withDesk_out _ out
  case trunkUp => exact withTrunk_out _ out
  case trunkDown => exact withTrunk_out _ out
  case clearTrunkErrors => exact withTrunk_out _ out
  case enableWindow =>
    by_cases named : w.target.toNat ≤ 7
    · have target : w.target.toNat = (⟨w.target.toNat, by omega⟩ : WindowId).val := rfl
      refine (withWindow_of_target _ target).trans (if_pos ?_)
      exact Nat.le_of_not_lt fun inside => out ⟨_, rfl, inside⟩
    · exact withWindow_out _ named
  case disableWindow => exact withWindow_out _ out
  case clearWindow => exact withWindow_out _ out
  case setClock => exact if_neg out
  case snapshot => exact if_pos (by omega)
  case clearLine =>
    simp only [State.perform, State.clearLineCommand]
    split
    case h_4 => rfl
    all_goals omega

/-- Settles O30: by the three checks in the order of R32. -/
theorem commandRefusedByFirstCheck : Obligations.CommandRefusedByFirstCheck := by
  refine ⟨fun s w more hd unknown => ?_, fun s w more k hd code no => ?_, fun s w more k hd code yes out => ?_⟩
  · have kind : commandKind w.code = none := commandKind_eq_none unknown
    have mine : Action.isCommand none (.command w) = true := decide_eq_true kind
    have refused : s.command w = s.report (refusal s w 2 false) := by
      unfold State.command State.refuseCommand
      rw [kind]
      rfl
    change Host.Outcome.next (s.carryOut _) = _
    rw [carryOut_head hd mine]
    exact congrArg (fun t => Host.Outcome.next (itemDone more t)) refused
  · rw [exec_command code hd, command_wrongMode code no]
  · exact exec_refused hd code yes (perform_out_of_range out)

/-! ### The consumed index (R191) -/

/-- Settles O27. -/
theorem consumedIndexWithinWritten : Obligations.ConsumedIndexWithinWritten := by
  intro s v more hd
  have carried : exec .consumedIndex s = .next (itemDone more (s.setConsumed v)) :=
    congrArg Host.Outcome.next (carryOut_head hd rfl)
  have legal : s.consumedLegal v = true ↔ s.ringCode ≠ 0 ∧ v < s.ringSize ∧
      forward s.ringSize s.writer.consumed v ≤ forward s.ringSize s.writer.consumed s.writer.writeIndex :=
    decide_eq_true_iff
  rw [carried]
  unfold State.setConsumed
  refine ⟨fun ring inside near => ?_, fun out => ?_⟩
  · rw [if_pos (legal.mpr ⟨ring, inside, near⟩)]
  · rw [if_neg fun h => ?_]
    · rfl
    obtain ⟨ring, inside, near⟩ := legal.mp h
    rcases out with none | far | beyond
    · exact ring none
    · omega
    · omega

/-! ### The switches of a desk (R84, R94, R98, R99) -/

theorem breakable_eq_true_iff (s : State) (c : SendContext) :
    s.breakable c = true ↔
      c.kind = .story ∧ (s.story c.handle).cls ≠ .flash ∧ (c.segment = .header ∨ c.segment = .text) := by
  unfold State.breakable
  cases c.segment <;> simp

theorem flashHead_eq_true_iff (q : List DeskEntry) :
    flashHead q = true ↔ ∃ e more, q = e :: more ∧ e.kind = .story ∧ e.cls = .flash := by
  unfold flashHead
  cases q <;> simp

theorem flashDue_eq_true_iff (s : State) (d : DeskId) : s.flashDue d = true ↔ FlashWaits s d := by
  unfold State.flashDue FlashWaits
  cases context : (s.desk d).context with
  | none => simp [context]
  | some c => simp [context, breakable_eq_true_iff, flashHead_eq_true_iff, and_assoc]

/-- A switch of a desk with the flag test that follows it. -/
theorem switch_testFlag (s : State) (d : DeskId) (f : Desk → Desk) :
    (s.onDesk d f).testFlag d = s.onDesk d fun k => { f k with preempt := (s.onDesk d f).flashDue d } := by
  unfold State.testFlag
  exact onDesk_onDesk s d _ _

theorem flashWaits_setPreempt (s : State) (d : DeskId) (b : Bool) :
    FlashWaits (s.onDesk d fun k => { k with preempt := b }) d ↔ FlashWaits s d := by
  unfold FlashWaits
  simp

/-- After a switch the flag stands exactly when the conditions of R94 do. -/
theorem flashDue_switch_iff (s : State) (d : DeskId) (f : Desk → Desk) :
    (s.onDesk d f).flashDue d = true ↔
      FlashWaits (s.onDesk d fun k => { f k with preempt := (s.onDesk d f).flashDue d }) d := by
  have join := onDesk_onDesk s d f fun k => { k with preempt := (s.onDesk d f).flashDue d }
  rw [← join, flashWaits_setPreempt]
  exact flashDue_eq_true_iff _ d

theorem flashDue_of_held {s : State} {d : DeskId} (held : (s.desk d).held = true) : s.flashDue d = false := by
  unfold State.flashDue
  simp [held]

/-- Settles O33: each switch is refused or changes its field, and the flag test follows. -/
theorem deskSwitchesChangeOneField : Obligations.DeskSwitchesChangeOneField := by
  intro s w more d hd run target
  refine ⟨fun code => ?_, fun code => ?_, fun code => ?_⟩
  · have yes : accepted .openDesk s.mode = true := decide_eq_true run
    have performed : s.perform .openDesk w = if (s.desk d).isOpen then .error .wrongState else .ok (s.openDesk d) :=
      withDesk_of_target _ target
    refine ⟨fun isOpen => exec_refused (k := .openDesk) hd code yes (performed.trans (if_pos isOpen)), fun closed => ?_⟩
    have done := exec_performed (k := .openDesk) hd code yes (performed.trans (if_neg (by simp [closed])))
    exact ⟨_, _, done, switch_testFlag s d _, by
      rw [State.openDesk, switch_testFlag]
      exact flashDue_switch_iff s d _⟩
  · have yes : accepted .holdDesk s.mode = true := decide_eq_true run
    have performed : s.perform .holdDesk w = if (s.desk d).held then .error .wrongState else .ok (s.holdDesk d) :=
      withDesk_of_target _ target
    refine ⟨fun held => exec_refused (k := .holdDesk) hd code yes (performed.trans (if_pos held)), fun free => ?_⟩
    have done := exec_performed (k := .holdDesk) hd code yes (performed.trans (if_neg (by simp [free])))
    rw [State.holdDesk, switch_testFlag, flashDue_of_held (by simp)] at done
    exact done
  · have yes : accepted .freeDesk s.mode = true := decide_eq_true run
    have performed : s.perform .freeDesk w = if (s.desk d).held then .ok (s.freeDesk d) else .error .wrongState :=
      withDesk_of_target _ target
    refine ⟨fun free => exec_refused (k := .freeDesk) hd code yes (performed.trans (if_neg (by simp [free]))),
      fun held => ?_⟩
    have done := exec_performed (k := .freeDesk) hd code yes (performed.trans (if_pos held))
    exact ⟨_, _, done, switch_testFlag s d _, by
      rw [State.freeDesk, switch_testFlag]
      exact flashDue_switch_iff s d _⟩

/-! ### The reserve-low latch (R52) -/

/-- Settles O37: the three branches of the reserve test. -/
theorem reserveLatchReportsOnce : Obligations.ReserveLatchReportsOnce := by
  intro s w
  unfold State.testReserve
  refine ⟨fun below clear => ?_, fun below set => ?_, fun above => ?_⟩
  · rw [if_pos (show s.room w < s.threshold w from below), if_neg (by simp [clear])]
    rfl
  · rw [if_pos (show s.room w < s.threshold w from below), if_pos set]
  · exact if_neg (Nat.not_lt.mpr above)

/-! ### One field changed, no report (R55, R192, R195) -/

theorem getLsbD_of_toNat_div {n : Nat} {b : BitVec n} {i : Nat} : b.getLsbD i = decide (b.toNat / 2 ^ i % 2 = 1) := by
  rw [← BitVec.testBit_toNat, Nat.testBit_eq_decide_div_mod_eq]

theorem lineDrive_eq_driven (flag activeLow openDrain : Bool) :
    lineDrive flag activeLow openDrain = driven flag activeLow openDrain := by
  cases flag <;> cases activeLow <;> cases openDrain <;> rfl

theorem pins_driven (s : State) :
    s.alertPin = driven s.writer.alert (setupByte s.setup 0x0C % 2 = 1) (setupByte s.setup 0x0C / 2 % 2 = 1) ∧
    s.noticePin = driven s.writer.notice (setupByte s.setup 0x0C / 4 % 2 = 1) (setupByte s.setup 0x0C / 8 % 2 = 1) := by
  unfold State.alertPin State.noticePin State.lineSetup setupByte
  simp only [lineDrive_eq_driven, getLsbD_of_toNat_div]
  exact ⟨by simp, by simp⟩

theorem clearLineCommand_of_target {s : State} {w : CommandWord} {b : Byte} (target : w.target = b) :
    s.clearLineCommand w = s.clearLineCommand { w with target := b } := by
  unfold State.clearLineCommand
  rw [target]

/-- Settles O38. -/
theorem clearWindowClockAndLine : Obligations.ClearWindowClockAndLine := by
  refine ⟨pins_driven, fun s w more hd => ⟨fun code run v target => ?_, fun code legal => ?_, fun code => ?_⟩⟩
  · exact exec_performed (k := .clearWindow) hd code (decide_eq_true run) (withWindow_of_target _ target)
  · exact exec_performed (k := .setClock) hd code rfl (if_pos legal)
  · exact ⟨fun target => exec_performed (k := .clearLine) hd code rfl (clearLineCommand_of_target target),
      fun target => exec_performed (k := .clearLine) hd code rfl (clearLineCommand_of_target target),
      fun target => exec_performed (k := .clearLine) hd code rfl (clearLineCommand_of_target target)⟩

end Sys2Proof.Machine
end

section
/-!
PROOFS. A story that becomes SPENT or FREE (R78, R79), the hold that clears with it (R50, R51), and the commands on windows
(R53, R54).
-/

namespace Sys2Proof.Machine

open Sys2Proof.Claims

/-! ### The holds that clear (R50, R51) -/

/-- A hold that a story's becoming FREE or SPENT leaves (R51). -/
def withoutTableFull : Option Hold → Option Hold
  | some ⟨.tableFull _ _, _, _⟩ => none
  | x => x

/-- A hold that a window's becoming DISABLED leaves (R50, R51). -/
def withoutWindow (v : WindowId) : Option Hold → Option Hold
  | some ⟨.tableFull w a, l, e⟩ => if w = v then none else some ⟨.tableFull w a, l, e⟩
  | some ⟨.ringFull w, l, e⟩ => if w = v then none else some ⟨.ringFull w, l, e⟩
  | x => x

theorem clearTableHold_eq (s : State) : s.clearTableHold = { s with hold := withoutTableFull s.hold } := by
  unfold State.clearTableHold
  match e : s.hold with
  | none => exact congrArg (fun x => { s with hold := x }) e
  | some ⟨.tableFull _ _, _, _⟩ => rfl
  | some ⟨.ringFull _, _, _⟩ => exact congrArg (fun x => { s with hold := x }) e
  | some ⟨.fifoFull, _, _⟩ => exact congrArg (fun x => { s with hold := x }) e

theorem clearWindowHold_eq (s : State) (v : WindowId) :
    s.clearWindowHold v = { s with hold := withoutWindow v s.hold } := by
  unfold State.clearWindowHold
  match e : s.hold with
  | none => exact congrArg (fun x => { s with hold := x }) e
  | some ⟨.fifoFull, _, _⟩ => exact congrArg (fun x => { s with hold := x }) e
  | some ⟨.tableFull w _, _, _⟩ =>
    unfold withoutWindow
    by_cases same : w = v
    · simp only [same, if_true]
      rfl
    · simp only [same, if_false]
      exact congrArg (fun x => { s with hold := x }) e
  | some ⟨.ringFull w, _, _⟩ =>
    unfold withoutWindow
    by_cases same : w = v
    · simp only [same, if_true]
      rfl
    · simp only [same, if_false]
      exact congrArg (fun x => { s with hold := x }) e

/-! ### Becoming FREE -/

theorem freeStory_eq (s : State) (h : HandleId) :
    s.freeStory h = ({ offWindow s h with completion := s.completion.erase h } : State).onStory h fun r =>
      { generation := r.generation } :=
  clearTableHold_eq _

theorem freeStory_eq_onWindow (s : State) (h : HandleId) :
    s.freeStory h =
      (({ s with completion := s.completion.erase h, hold := withoutTableFull s.hold } : State).onStory h fun r =>
        { generation := r.generation }).onWindow (s.story h).window fun k => { k with stories := k.stories.erase h } :=
  freeStory_eq s h

theorem report_onWindow (s : State) (r : Record) (w : WindowId) (f : Window → Window) :
    (s.report r).onWindow w f = (s.onWindow w f).report r := by
  rw [report_eq_onWriter, report_eq_onWriter]
  rfl

theorem report_onStory (s : State) (r : Record) (h : HandleId) (f : Story → Story) :
    (s.report r).onStory h f = (s.onStory h f).report r := by
  rw [report_eq_onWriter, report_eq_onWriter]
  rfl

theorem freeStory_report (s : State) (r : Record) (h : HandleId) :
    (s.report r).freeStory h = (s.freeStory h).report r := by
  rw [freeStory_eq, freeStory_eq, report_completion, report_eq_onWriter, report_eq_onWriter]
  rfl

/-! ### Becoming SPENT, and the transitions of R78 and R79 -/

theorem toList_eq_map_finRange {α : Type} {n : Nat} (v : Vector α n) :
    v.toList = (List.finRange n).map fun i => v[i] := by
  refine List.ext_getElem (by simp) fun i _ _ => ?_
  simp

theorem countMarks_eq_marked (s : State) (h : HandleId) (m : Mark) : (s.story h).countMarks m = marked s h m := by
  unfold Story.countMarks marked State.markAt
  rw [toList_eq_map_finRange, List.count_eq_countP, List.countP_map]
  rfl

theorem reportDone_eq (s : State) (h : HandleId) (final : StoryState) :
    s.reportDone h final = s.report (doneRecord s h final.code) := by
  unfold doneRecord
  rw [← countMarks_eq_marked, ← countMarks_eq_marked, ← countMarks_eq_marked]
  rfl

/-- The state of a story is no part of its STORY_DONE. -/
theorem doneRecord_congr {s t : State} {h : HandleId} {st : StoryState} (final : Nat)
    (story : t.story h = { s.story h with state := st }) (clock : t.clock = s.clock) :
    doneRecord t h final = doneRecord s h final := by
  unfold doneRecord naming marked State.markAt
  rw [story, clock]

theorem spendStory_eq (s : State) (h : HandleId) :
    s.spendStory h =
      (offWindow (s.onStory h fun r => { r with state := .spent }) h).report (doneRecord s h 4) := by
  have spent : ((s.setStoryState h .spent).leaveWindowList h).story h = { s.story h with state := .spent } := by
    unfold State.leaveWindowList State.setStoryState
    simp
  unfold State.spendStory
  rw [reportDone_eq, doneRecord_congr _ spent rfl, clearTableHold_eq, report_hold, report_eq_onWriter,
    report_eq_onWriter]
  rfl

/-- The transitions of R78 and R79, in the words of the claims. -/
theorem settleStory_eq (s : State) (h : HandleId) : s.settleStory h = settled s h := by
  have finished : (s.story h).finished = true ↔
      marked s h .queued = 0 ∧ marked s h .active = 0 ∧ (s.story h).holders = 0 := by
    unfold Story.finished
    rw [countMarks_eq_marked, countMarks_eq_marked]
    simp [and_assoc]
  unfold State.settleStory settled
  cases state : (s.story h).state <;> dsimp only <;> simp only [state, true_and, false_and, or_true, reduceCtorEq,
    or_self, or_false, if_false, if_true, ← finished]
  case live => rw [spendStory_eq]
  case killed =>
    rw [reportDone_eq, freeStory_report, freeStory_eq]
    rfl
  case superseded =>
    rw [reportDone_eq, freeStory_report, freeStory_eq]
    rfl

/-! ### The window commands (R53, R54) -/

theorem testRooms_congr {s t : State} (e : s = t) : s.testRooms = t.testRooms := congrArg State.testRooms e

/-- DISABLE_WINDOW of a window without an OPEN story. -/
theorem disableWindow_of_none {s : State} {v : WindowId} (none : s.openStory v = none) :
    s.disableWindow v = (({ s with hold := withoutWindow v s.hold } : State).onWindow v fun k =>
      { k with enabled := false, parse := .hunt }).testRooms := by
  unfold State.disableWindow
  rw [abandonOpen_of_none none, clearWindowHold_eq]
  rfl

/-- DISABLE_WINDOW abandons the OPEN story. -/
theorem disableWindow_of_open {s : State} {v : WindowId} {h : HandleId} (isOpen : s.openStory v = some h)
    (window : (s.story h).window = v) :
    s.disableWindow v =
      (((({ s with completion := s.completion.erase h, hold := withoutWindow v (withoutTableFull s.hold) } : State).report
        (naming s .storyAbandoned (byte v.val) h (17 :: leBytes 4 (s.story h).origin.toNat))).onStory h fun r =>
          { generation := r.generation }).onWindow v fun k =>
            { k with
              enabled := false, parse := .hunt, stories := k.stories.erase h, lead := [], textCount := 0
              extents := [] }).testRooms := by
  have gone : s.abandonOpen v .windowDisabled =
      ((({ s with completion := s.completion.erase h, hold := withoutTableFull s.hold } : State).report
        (naming s .storyAbandoned (byte v.val) h (17 :: leBytes 4 (s.story h).origin.toNat))).onStory h fun r =>
          { generation := r.generation }).onWindow v fun k =>
            { k with stories := k.stories.erase h, lead := [], textCount := 0, extents := [] } := by
    unfold State.abandonOpen
    rw [isOpen]
    dsimp only
    rw [reportStory_eq, freeStory_report, freeStory_eq_onWindow, window, ← report_onWindow, ← report_onStory]
    exact onWindow_onWindow _ _ _ _
  unfold State.disableWindow
  rw [gone, onWindow_onWindow, clearWindowHold_eq, report_onStory, report_onStory, report_onWindow, report_onWindow,
    report_eq_onWriter, report_eq_onWriter]
  rfl

/-- The restart address is set in an enabled window at its offset. -/
theorem enableRefused_eq_true_iff (s : State) (v : WindowId) (offset : Nat) :
    s.enableRefused v offset = true ↔ (s.window v).setUp = false ∨ (s.window v).enabled = true ∨ offset % 8 ≠ 0 ∨
      s.inHeldSpan v (s.restartAddr v offset) = true := by
  unfold State.enableRefused
  simp [or_assoc]

/-- What DISABLE_WINDOW leaves of a hold: it clears one of a write to the window, and any TABLE_FULL hold when it frees a
story. -/
theorem hold_after_disable {v : WindowId} {hold still : Option Hold} {freed : Prop} [Decidable freed]
    (e : still = (match hold with
      | some ⟨.ringFull x, _, _⟩ => if x = v then none else hold
      | some ⟨.tableFull x _, _, _⟩ => if x = v ∨ freed then none else hold
      | h => h)) :
    (¬ freed → still = withoutWindow v hold) ∧ (freed → still = withoutWindow v (withoutTableFull hold)) := by
  subst e
  match hold with
  | none => exact ⟨fun _ => rfl, fun _ => rfl⟩
  | some ⟨.fifoFull, _, _⟩ => exact ⟨fun _ => rfl, fun _ => rfl⟩
  | some ⟨.ringFull x, _, _⟩ => exact ⟨fun _ => rfl, fun _ => rfl⟩
  | some ⟨.tableFull x _, _, _⟩ =>
    refine ⟨fun kept => ?_, fun freed => if_pos (Or.inr freed)⟩
    simp only [kept, or_false]
    rfl

/-- Settles O36: the refusals of R53 and R54, and the OPEN story abandoned before the room tests. -/
theorem windowEnableAndDisable : Obligations.WindowEnableAndDisable := by
  intro s w more v a still hd run target stillIs
  obtain ⟨unfreed, freed⟩ := hold_after_disable stillIs
  refine ⟨fun code inside restart => ?_, fun code => ?_⟩
  · have yes : accepted .enableWindow s.mode = true := decide_eq_true run
    have performed : s.perform .enableWindow w =
        if s.enableRefused v w.value.toNat then .error .wrongState else .ok (s.enableWindow v w.value.toNat) :=
      (withWindow_of_target _ target).trans (if_neg (Nat.not_le.mpr inside))
    have refusedIff := enableRefused_eq_true_iff s v w.value.toNat
    have restart' : s.restartAddr v w.value.toNat = a := restart.symm
    rw [restart'] at refusedIff
    refine ⟨fun bad => exec_refused (k := .enableWindow) hd code yes (performed.trans (if_pos (refusedIff.mpr bad))),
      fun setUp disabled aligned outside => ?_⟩
    have allowed : ¬ s.enableRefused v w.value.toNat = true := by
      rw [refusedIff, setUp, disabled, outside]
      simp [aligned]
    have done := exec_performed (k := .enableWindow) hd code yes (performed.trans (if_neg allowed))
    rw [State.enableWindow, restart'] at done
    exact done
  · have yes : accepted .disableWindow s.mode = true := decide_eq_true run
    have performed : s.perform .disableWindow w =
        if (s.window v).enabled then .ok (s.disableWindow v) else .error .wrongState := withWindow_of_target _ target
    refine ⟨fun disabled => exec_refused (k := .disableWindow) hd code yes (performed.trans (if_neg (by simp [disabled]))),
      fun enabled noStory => ?_, fun h enabled isOpen window => ?_⟩
    · have done := exec_performed (k := .disableWindow) hd code yes (performed.trans (if_pos enabled))
      rw [disableWindow_of_none noStory, ← unfreed (by simp [noStory])] at done
      exact done
    · have done := exec_performed (k := .disableWindow) hd code yes (performed.trans (if_pos enabled))
      rw [disableWindow_of_open isOpen window, ← freed (by simp [isOpen])] at done
      exact done

end Sys2Proof.Machine
end

section
/-!
PROOFS. The movement of a trunk between its states (R158, R173, R182, R186), the commands on trunks (R28, R144, R175,
R183), and the resets (R19, R31).
-/

namespace Sys2Proof.Machine

open Sys2Proof.Claims

/-! ### The desks of a trunk -/

theorem mem_trunkDesks_iff (s : State) (u : TrunkId) (d : DeskId) : d ∈ s.trunkDesks u ↔ OnTrunk s u d := by
  have names (n : Nat) : deskOfNumber n = some d ↔ n = d.val + 1 := by
    unfold deskOfNumber
    split
    · rw [Option.some_inj, Fin.ext_iff]
      simp only
      omega
    · simp only [reduceCtorEq, false_iff]
      omega
  unfold State.trunkDesks Setup.slots OnTrunk State.slotDesk
  simp only [List.mem_filterMap, List.mem_map, List.mem_range, names]
  constructor
  · rintro ⟨k, ⟨i, inside, rfl⟩, number⟩
    exact ⟨i + 1, by omega, inside, number⟩
  · rintro ⟨k, first, last, number⟩
    exact ⟨k, ⟨k - 1, by unfold State.slotCount at last; omega, by omega⟩, number⟩

/-- A change made of each desk of a list touches the desks alone. -/
theorem foldl_onDesk_eq (f : Desk → Desk) (l : List DeskId) (s : State) :
    l.foldl (fun s d => s.onDesk d f) s = { s with desks := (l.foldl (fun s d => s.onDesk d f) s).desks } := by
  induction l generalizing s with
  | nil => rfl
  | cons d l ih =>
    rw [List.foldl_cons, ih]
    rfl

/-- A change that made twice is made once leaves each desk of the list changed, and each other desk as it was. -/
theorem desk_foldl_onDesk {f : Desk → Desk} (once : ∀ k, f (f k) = f k) (l : List DeskId) (s : State) (d : DeskId) :
    (l.foldl (fun s d => s.onDesk d f) s).desk d = if d ∈ l then f (s.desk d) else s.desk d := by
  induction l generalizing s with
  | nil => rfl
  | cons e l ih =>
    rw [List.foldl_cons, ih, desk_onDesk]
    by_cases same : e = d
    · subst same
      simp [once]
    · simp [same, Ne.symm same]

theorem desksLoseLine_eq (s : State) (u : TrunkId) :
    s.desksLoseLine u = { s with desks := (s.desksLoseLine u).desks } :=
  foldl_onDesk_eq _ _ s

theorem desk_desksLoseLine_on {s : State} {u : TrunkId} {d : DeskId} (on : OnTrunk s u d) :
    (s.desksLoseLine u).desk d = { s.desk d with line := true, farStop := false } := by
  have mem := (mem_trunkDesks_iff s u d).mpr on
  exact (desk_foldl_onDesk (f := fun k => { k with line := true, farStop := false }) (fun _ => rfl) _ s d).trans (if_pos mem)

theorem desk_desksLoseLine_off {s : State} {u : TrunkId} {d : DeskId} (off : ¬ OnTrunk s u d) :
    (s.desksLoseLine u).desk d = s.desk d := by
  have notMem := mt (mem_trunkDesks_iff s u d).mp off
  exact (desk_foldl_onDesk (f := fun k => { k with line := true, farStop := false }) (fun _ => rfl) _ s d).trans (if_neg notMem)

/-! ### A trunk's entry to SEARCH, BROKEN and DOWN -/

theorem moveTrunk_eq (s : State) (u : TrunkId) (st : TrunkState) (a : Machine.Alignment) :
    s.moveTrunk u st a = s.onTrunk u fun k =>
      { k with
        receiver := fresh k.receiver a k.receiver.mismatch
        bringUp := { k.bringUp with state := st, received := none, page := none, linkTimer := none } } :=
  onTrunk_onTrunk s u _ _

theorem isUp_eq_false {s : State} {u : TrunkId} (notUp : (s.trunk u).bringUp.state ≠ .up) : s.isUp u = false :=
  decide_eq_false notUp

theorem isUp_eq_true {s : State} {u : TrunkId} (up : (s.trunk u).bringUp.state = .up) : s.isUp u = true :=
  decide_eq_true up

/-- A trunk that was not UP enters SEARCH, or BROKEN when its line is in break (R158). -/
theorem enterSearch_of_not_up {s : State} {u : TrunkId} (notUp : (s.trunk u).bringUp.state ≠ .up) :
    s.enterSearch u = s.onTrunk u fun k =>
      { k with
        receiver := fresh k.receiver (if k.receiver.inBreak then .off else .measuring) false
        bringUp :=
          { k.bringUp with
            state := if k.receiver.inBreak then .broken else .search
            received := none, page := none, linkTimer := none } } := by
  have searching : (s.moveTrunk u .search .measuring).onReceiver u (fun r => { r with mismatch := false }) =
      s.onTrunk u fun k =>
        { k with
          receiver := fresh k.receiver .measuring false
          bringUp := { k.bringUp with state := .search, received := none, page := none, linkTimer := none } } := by
    rw [moveTrunk_eq]
    exact onTrunk_onTrunk s u _ _
  unfold State.enterSearch
  simp only [searching, isUp_eq_false notUp, Bool.false_eq_true, if_false]
  split
  case isTrue broken =>
    unfold State.handBreakStart State.enterBroken
    simp only [trunk_onTrunk, if_true]
    rw [isUp_eq_false (by simp), if_neg Bool.false_ne_true, moveTrunk_eq, onTrunk_onTrunk]
    refine onTrunk_congr _ ?_
    simp [broken, fresh]
  case isFalse whole =>
    refine onTrunk_congr _ ?_
    simp [whole]

theorem enterDown_eq (s : State) (u : TrunkId) :
    s.enterDown u = s.onTrunk u fun k =>
      { transmitter := finishing k.transmitter, receiver := fresh k.receiver .off k.receiver.mismatch
        bringUp := { state := .down, received := none, farStation := none, page := none, linkTimer := none
                     limitTimer := none } } := by
  unfold State.enterDown State.onBringUp State.onReceiver State.stopFraming
  rw [onTrunk_onTrunk, onTrunk_onTrunk]
  rfl

/-- A trunk out of DOWN begins a bring-up frame unless its transmitter still completes its last symbol (R145). -/
theorem startFraming_of_search {s : State} {u : TrunkId} (search : (s.trunk u).bringUp.state = .search) :
    s.startFraming u = s.onTrunk u fun k =>
      { k with
        transmitter :=
          match k.transmitter with
          | none => some (firstSymbol s u (.bringUp (s.baseWord u false)))
          | some f => some f } := by
  have frame : s.newFrame u = firstSymbol s u (.bringUp (s.baseWord u false)) := by
    unfold State.newFrame State.offeredWord
    rw [search]
    rfl
  unfold State.startFraming State.beginFrame
  rw [frame]
  cases transmitter : (s.trunk u).transmitter with
  | none =>
    refine onTrunk_congr _ ?_
    simp only [transmitter]
  | some f =>
    refine (onTrunk_self _ ?_).symm
    simp only [transmitter]
    rw [← transmitter]

/-! ### The commands on trunks -/

theorem trunkUp_eq (s : State) (u : TrunkId) :
    s.trunkUp u = s.onTrunk u fun k =>
      { transmitter :=
          match k.transmitter with
          | none => some (firstSymbol s u (.bringUp (s.baseWord u false)))
          | some f => some f
        receiver := fresh k.receiver (if k.receiver.inBreak then .off else .measuring) false
        bringUp :=
          { k.bringUp with
            state := if k.receiver.inBreak then .broken else .search
            received := none, page := none, linkTimer := none
            limitTimer := if s.bringUpLimit u = 0 then none else some 0 } } := by
  unfold State.trunkUp State.onBringUp
  dsimp only
  rw [startFraming_of_search (by simp), onTrunk_onTrunk, enterSearch_of_not_up (by simp), onTrunk_onTrunk]
  rfl

theorem trunkUpRefused_eq_true_iff (s : State) (u : TrunkId) :
    s.trunkUpRefused u = true ↔ (s.trunk u).bringUp.state ≠ .down ∨ s.slotCount u = 0 := by
  unfold State.trunkUpRefused
  simp

/-- Settles O35: TRUNK_UP and TRUNK_DOWN by the states they enter, the desks losing their line when it was UP. -/
theorem trunkUpDownAndClear : Obligations.TrunkUpDownAndClear := by
  intro s w more u hd run target
  refine ⟨fun code => ?_, fun code => ?_, fun code => ?_⟩
  · have yes : accepted .trunkUp s.mode = true := decide_eq_true run
    have performed : s.perform .trunkUp w = if s.trunkUpRefused u then .error .wrongState else .ok (s.trunkUp u) :=
      withTrunk_of_target _ target
    have refusedIff := trunkUpRefused_eq_true_iff s u
    refine ⟨fun bad => exec_refused (k := .trunkUp) hd code yes (performed.trans (if_pos (refusedIff.mpr bad))),
      fun down slots => ?_⟩
    have allowed : ¬ s.trunkUpRefused u = true := fun bad => (refusedIff.mp bad).elim (· down) slots
    have done := exec_performed (k := .trunkUp) hd code yes (performed.trans (if_neg allowed))
    rw [trunkUp_eq] at done
    exact done
  · have yes : accepted .trunkDown s.mode = true := decide_eq_true run
    have performed : s.perform .trunkDown w =
        if (s.trunk u).bringUp.state = .down then .error .wrongState else .ok (s.trunkDown u) :=
      withTrunk_of_target _ target
    refine ⟨fun down => exec_refused (k := .trunkDown) hd code yes (performed.trans (if_pos down)), fun out => ?_⟩
    have done := exec_performed (k := .trunkDown) hd code yes (performed.trans (if_neg out))
    refine ⟨s.trunkDown u, done, ?_⟩
    unfold State.trunkDown
    by_cases up : (s.trunk u).bringUp.state = .up
    · rw [isUp_eq_true up, if_pos rfl, ← enterDown_eq]
      refine ⟨desksLoseLine_eq _ u, fun d _ on => ?_, fun d off => ?_⟩
      · rw [desk_desksLoseLine_on (s := s.enterDown u) on, enterDown_eq, desk_onTrunk]
      · rw [desk_desksLoseLine_off (s := s.enterDown u) (off.resolve_left (· up)), enterDown_eq, desk_onTrunk]
    · rw [isUp_eq_false up, if_neg Bool.false_ne_true, ← enterDown_eq]
      refine ⟨rfl, fun d up' => absurd up' up, fun d _ => ?_⟩
      rw [enterDown_eq, desk_onTrunk]
  · exact exec_performed (k := .clearTrunkErrors) hd code (decide_eq_true run) (withTrunk_of_target _ target)

/-! ### The resets -/

/-- Settles O29: every part of SOFT_RESET in its own words. -/
theorem softResetClearsThePart : Obligations.SoftResetClearsThePart := by
  intro s w more hd code
  have done := exec_performed (k := .softReset) hd code rfl rfl
  refine ⟨{ s with
      mode := .configure
      hold := none
      windows := Vector.ofFn fun w => (s.window w).softReset (BitVec.ofNat 28 (s.windowBase w))
      stories := s.stories.map Story.cleared
      completion := []
      desks := s.desks.map Desk.softReset
      trunks := s.trunks.map Trunk.softReset
      writer := s.writer.softReset }, done, rfl, fun x => ?_, fun h => ?_, fun d => ?_, fun x => ?_, rfl⟩
  · exact Vector.getElem_ofFn _
  · exact Vector.getElem_map _ _
  · exact Vector.getElem_map _ _
  · exact Vector.getElem_map _ _

theorem resetSetupByte_eq (off : Nat) : resetSetupByte off = setupAtReset off := by
  unfold resetSetupByte setupAtReset
  split <;> simp_all

/-- Settles O4: the setup shadows list no byte after a reset, so that each stands at its hard-reset value. -/
theorem hardResetClearsThePart : Obligations.HardResetClearsThePart := by
  intro s straps
  have zero (k : ReportKind) : (leNat (Shadow.bytes [] 8 4)).testBit (k.code - 1) = false := Nat.zero_testBit _
  refine ⟨s.hardReset straps, rfl, rfl, rfl, fun off => resetSetupByte_eq off,
    ⟨rfl, rfl, zero, rfl, rfl, rfl, rfl, rfl, rfl, rfl, rfl, rfl, rfl, rfl⟩, rfl, rfl, rfl, rfl, rfl, rfl, rfl, rfl,
    ?_, fun p port => ?_, fun w => ?_, fun h => ?_, rfl, fun d => ?_, rfl, fun u => ?_, rfl, rfl, rfl⟩
  · unfold State.hardReset
    rw [Option.map_map]
    rfl
  · obtain ⟨q, -, rfl⟩ := Option.map_eq_some_iff.mp port
    rfl
  · exact Vector.getElem_replicate _
  · exact Vector.getElem_replicate _
  · exact Vector.getElem_replicate _
  · exact Vector.getElem_map _ _

end Sys2Proof.Machine
end

section
/-!
PROOFS. Commit actions (R25 to R29): the checks in their order, what each check says, and the effect of a commit that passes
them.
-/

namespace Sys2Proof.Machine

open Sys2Proof.Claims

/-! ### The overlay of a commit (R22) -/

/-- A shadow byte after an overlay: the last written there, or the one before. -/
theorem read_overlay (m cells : List Host.Cell) (off : Nat) :
    Shadow.read (Shadow.overlay m cells) off =
      ((cells.reverse.find? fun c => decide (c.1 = off)).map Prod.snd).getD (Shadow.read m off) := by
  induction cells using List.reverseRecOn with
  | nil => rfl
  | append_singleton cells c ih =>
    unfold Shadow.overlay at *
    rw [List.foldl_append, List.foldl_cons, List.foldl_nil, Shadow.read_write, List.reverse_append]
    by_cases here : c.1 = off
    · simp [here]
    · rw [if_neg (Ne.symm here), ih]
      simp [here]

/-! ### The effect of a commit -/

theorem afterCommit_general_zero (s : State) :
    s.afterCommit (.general 0) = s.onWriter fun w =>
      { w with writeIndex := 0, consumed := 0, outstanding := w.outstanding.map Outstanding.abandonRecord } := rfl

theorem afterCommit_other (s : State) {e : EntryId} (notRing : e ≠ .general 0) (notWindow : ∀ w, e ≠ .window w) :
    s.afterCommit e = s := by
  cases e with
  | general n => exact if_neg fun zero => notRing (congrArg EntryId.general zero)
  | window w => exact absurd rfl (notWindow w)
  | _ => rfl

theorem commit_refused {s : State} {e : EntryId} {staged : Bool} {cells : List Host.Cell} {reason : SetupReason}
    (fault : s.commitFault e staged (Shadow.overlay s.setup cells) = some reason) :
    s.commit e staged cells = s.report (plain s .setupRefused 0xFF (byte reason.code :: leBytes 2 e.base)) := by
  unfold State.commit
  dsimp only
  rw [fault]
  rfl

theorem commit_passed {s : State} {e : EntryId} {staged : Bool} {cells : List Host.Cell}
    (pass : s.commitFault e staged (Shadow.overlay s.setup cells) = none) :
    s.commit e staged cells = ({ s with setup := Shadow.overlay s.setup cells } : State).afterCommit e := by
  unfold State.commit
  dsimp only
  rw [pass]

theorem exec_setupCommit {s : State} {e : EntryId} {staged : Bool} {cells : List Host.Cell} {more : List Action}
    (hd : Head s (.commit e staged cells) more) :
    exec .setupCommit s = .next (itemDone more (s.commit e staged cells)) :=
  congrArg Host.Outcome.next (carryOut_head hd rfl)

/-- Settles O24: refused with the first fault, or the effects of each kind of entry. -/
theorem commitTakesEffectOrIsRefused : Obligations.CommitTakesEffectOrIsRefused := by
  refine ⟨fun s e staged cells more reason hd fault => ?_, fun s e staged cells more u hd pass setup => ?_,
    fun m cells off => ?_⟩
  · rw [exec_setupCommit hd, commit_refused fault]
  · rw [exec_setupCommit hd, commit_passed pass, ← setup]
    refine ⟨?_, ?_, fun notRing notWindow => ?_⟩
    · rintro rfl
      rfl
    · rintro w rfl
      rfl
    · rw [afterCommit_other u notRing notWindow]
  · rw [read_overlay]
    cases cells.reverse.find? fun c => decide (c.1 = off) <;> rfl

/-! ### The checks in their order (R25) -/

theorem locked_eq_true_iff (s : State) (e : EntryId) : s.locked e = true ↔ s.mode = .run ∧ LockedInRun s e := by
  have words : ∀ n : Fin 5, (n ≠ 1 ∧ n ≠ 4) ↔ n = 0 ∨ n = 2 ∨ n = 3 := by decide
  unfold State.locked LockedInRun
  cases s.mode with
  | configure => simp
  | run => cases e <;> simp [← words]

/-- The checks after staging and lock, with the values of the checks given as propositions. -/
theorem commitFault_unlocked {s : State} {e : EntryId} {m : List Host.Cell} (unlocked : s.locked e = false) :
    s.commitFault e true m =
      if fieldsLegal m e = true then
        if baseAligned m e = true then
          if s.overlaps m e = true then some .overlap
          else if duplicateDesk m e = true then some .duplicateDesk else none
        else some .alignment
      else some .outOfRange := by
  unfold State.commitFault
  rw [unlocked]
  cases fieldsLegal m e <;> cases baseAligned m e <;> rfl

theorem locked_of_configure {s : State} (e : EntryId) (mode : s.mode = .configure) : s.locked e = false := by
  unfold State.locked
  rw [mode]

theorem locked_of_free {s : State} {e : EntryId} (free : ¬ LockedInRun s e) : s.locked e = false :=
  Bool.eq_false_iff.mpr fun locked => free ((locked_eq_true_iff s e).mp locked).2

theorem commitFault_locked {s : State} {e : EntryId} (m : List Host.Cell) (locked : s.locked e = true) :
    s.commitFault e true m = some .locked := by
  unfold State.commitFault
  rw [locked]
  rfl

theorem commitFault_ne_locked {s : State} {e : EntryId} {m : List Host.Cell} (unlocked : s.locked e = false) :
    s.commitFault e true m ≠ some .locked := by
  rw [commitFault_unlocked unlocked]
  split
  · split
    · split
      · simp
      · split <;> simp
    · simp
  · simp

/-! ### Entries of which the fields alone are checked -/

/-- An entry whose new value has no base, no range and no slot map. -/
def fieldsOnly (e : EntryId) : Prop := e ≠ .general 0 ∧ (∀ w, e ≠ .window w) ∧ ∀ t, e ≠ .trunk t

theorem commitFault_fieldsOnly {s : State} {e : EntryId} {m : List Host.Cell} (mode : s.mode = .configure)
    (only : fieldsOnly e) :
    s.commitFault e true m = if fieldsLegal m e = true then none else some .outOfRange := by
  obtain ⟨notRing, notWindow, notTrunk⟩ := only
  have rest : baseAligned m e = true ∧ s.overlaps m e = false ∧ duplicateDesk m e = false := by
    cases e with
    | general n =>
      have notZero : n ≠ 0 := fun zero => notRing (congrArg EntryId.general zero)
      simp [baseAligned, State.overlaps, duplicateDesk, notZero]
    | window w => exact absurd rfl (notWindow w)
    | trunk t => exact absurd rfl (notTrunk t)
    | _ => exact ⟨rfl, rfl, rfl⟩
  obtain ⟨aligned, apart, once⟩ := rest
  rw [commitFault_unlocked (locked_of_configure e mode), aligned, apart, once]
  rfl

theorem commitFault_eq_none_iff {s : State} {e : EntryId} {m : List Host.Cell} (mode : s.mode = .configure)
    (only : fieldsOnly e) : s.commitFault e true m = none ↔ fieldsLegal m e = true := by
  rw [commitFault_fieldsOnly mode only]
  split <;> simp_all

/-! ### Trunk entries (Table 2-4, R28) -/

theorem mem_slots_iff (m : List Host.Cell) (t : TrunkId) (k : Nat) :
    k ∈ Setup.slots m t ↔ 1 ≤ k ∧ k ≤ Setup.slotCount m t := by
  unfold Setup.slots
  simp only [List.mem_map, List.mem_range]
  constructor
  · rintro ⟨i, inside, rfl⟩
    omega
  · rintro ⟨first, last⟩
    exact ⟨k - 1, by omega, by omega⟩

theorem fieldsLegal_trunk_iff (m : List Host.Cell) (t : TrunkId) : fieldsLegal m (.trunk t) = true ↔ TrunkLegal m t := by
  unfold fieldsLegal TrunkLegal
  simp only [Bool.and_eq_true, decide_eq_true_eq, List.all_eq_true, mem_slots_iff]
  unfold entryByte EntryId.base setupByte
  constructor
  · rintro ⟨⟨low, high, rate, station, select, limit⟩, desks⟩
    exact ⟨⟨low, high⟩, rate, station, select, limit, fun k first last => desks k ⟨first, last⟩⟩
  · rintro ⟨⟨low, high⟩, rate, station, select, limit, desks⟩
    exact ⟨⟨low, high, rate, station, select, limit⟩, fun k ⟨first, last⟩ => desks k first last⟩

/-- The slots of the four trunks, each with its trunk. -/
def allSlots (m : List Host.Cell) : List (TrunkId × Nat) :=
  allTrunks.flatMap fun t => (Setup.slots m t).map (Prod.mk t)

theorem mem_allSlots_iff (m : List Host.Cell) (x : TrunkId × Nat) :
    x ∈ allSlots m ↔ 1 ≤ x.2 ∧ x.2 ≤ Setup.slotCount m x.1 := by
  obtain ⟨t, k⟩ := x
  unfold allSlots allTrunks
  simp [mem_slots_iff]

theorem nodup_allSlots (m : List Host.Cell) : (allSlots m).Nodup := by
  refine List.nodup_flatMap.mpr ⟨fun t _ => ?_, ?_⟩
  · refine List.Nodup.map (Prod.mk_right_injective t) ?_
    exact List.nodup_range.map (add_left_injective 1)
  · refine (List.nodup_finRange 4).imp fun {x y} differ => ?_
    intro p inX inY
    obtain ⟨_, -, rfl⟩ := List.mem_map.mp inX
    obtain ⟨_, -, e⟩ := List.mem_map.mp inY
    exact differ (congrArg Prod.fst e).symm

theorem mappedDesks_eq (m : List Host.Cell) :
    mappedDesks m = ((allSlots m).filter fun x => decide (Setup.slotDesk m x.1 x.2 ≠ 0)).map fun x =>
      Setup.slotDesk m x.1 x.2 := by
  have listed : (allTrunks.flatMap fun t => (Setup.slots m t).map fun k => Setup.slotDesk m t k) =
      (allSlots m).map fun x => Setup.slotDesk m x.1 x.2 := by
    unfold allSlots
    rw [List.map_flatMap]
    simp only [List.map_map, Function.comp_def]
  unfold mappedDesks
  rw [listed, List.filter_map]
  rfl

theorem duplicateDesk_trunk_iff (m : List Host.Cell) (t : TrunkId) :
    duplicateDesk m (.trunk t) = true ↔ MappedTwice m := by
  have named (x : TrunkId × Nat) :
      x ∈ (allSlots m).filter (fun x => decide (Setup.slotDesk m x.1 x.2 ≠ 0)) ↔
        (1 ≤ x.2 ∧ x.2 ≤ Setup.slotCount m x.1) ∧ Setup.slotDesk m x.1 x.2 ≠ 0 := by
    rw [List.mem_filter, mem_allSlots_iff, decide_eq_true_iff]
  unfold duplicateDesk MappedTwice
  rw [decide_eq_true_iff, mappedDesks_eq, List.nodup_map_iff_inj_on ((nodup_allSlots m).filter _)]
  simp only [named]
  constructor
  · intro twice
    push Not at twice
    obtain ⟨⟨x, k⟩, ⟨⟨k1, k2⟩, desk⟩, ⟨y, l⟩, ⟨⟨l1, l2⟩, -⟩, same, differ⟩ := twice
    exact ⟨x, y, k, l, k1, k2, l1, l2, desk, same, fun ⟨e, f⟩ => differ (by rw [e, f])⟩
  · rintro ⟨x, y, k, l, k1, k2, l1, l2, desk, same, differ⟩ once
    have e := once (x, k) ⟨⟨k1, k2⟩, desk⟩ (y, l) ⟨⟨l1, l2⟩, same ▸ desk⟩ same
    exact differ ⟨congrArg Prod.fst e, congrArg Prod.snd e⟩

theorem commitFault_trunk {s : State} (t : TrunkId) (m : List Host.Cell) (mode : s.mode = .configure) :
    (s.commitFault (.trunk t) true m = some .outOfRange ↔ ¬ TrunkLegal m t) ∧
    (s.commitFault (.trunk t) true m = some .duplicateDesk ↔ TrunkLegal m t ∧ MappedTwice m) ∧
    (s.commitFault (.trunk t) true m = none ↔ TrunkLegal m t ∧ ¬ MappedTwice m) := by
  rw [commitFault_unlocked (locked_of_configure _ mode), ← fieldsLegal_trunk_iff, ← duplicateDesk_trunk_iff m t]
  simp only [baseAligned, State.overlaps, if_true, Bool.false_eq_true, if_false]
  by_cases legal : fieldsLegal m (.trunk t) = true
  · by_cases twice : duplicateDesk m (.trunk t) = true <;> simp [legal, twice]
  · simp [legal]

/-! ### The legal values of Tables 2-2 to 2-7 -/

theorem fieldsLegal_codes_iff (m : List Host.Cell) :
    fieldsLegal m (.general 3) = true ↔
      ∀ i < 6, setupByte m (0x18 + i) ≤ 31 ∧ ∀ j < 6, setupByte m (0x18 + i) = setupByte m (0x18 + j) → i = j := by
  have legal : fieldsLegal m (.general 3) =
      ((List.range 6).all (fun i => decide (setupByte m (0x18 + i) ≤ 31)) &&
        decide ((List.range 6).map fun i => setupByte m (0x18 + i)).Nodup) := rfl
  rw [legal, Bool.and_eq_true, List.all_eq_true, decide_eq_true_iff, List.nodup_map_iff_inj_on List.nodup_range]
  simp only [List.mem_range, decide_eq_true_eq]
  exact ⟨fun ⟨small, distinct⟩ i hi => ⟨small i hi, fun j hj => distinct i hi j hj⟩,
    fun both => ⟨fun i hi => (both i hi).1, fun i hi j hj => (both i hi).2 j hj⟩⟩

/-- Settles O25: the order of the checks, and each entry's own check. -/
theorem commitLocksAndLegalValues : Obligations.CommitLocksAndLegalValues := by
  refine ⟨fun s e m => rfl, fun s e m run locked => ?_, fun s e m free => ?_, fun s e m run free => ?_,
    fun s e m mode notRing notWindow notTrunk => ?_, fun s t m mode => commitFault_trunk t m mode, rfl,
    fun s m v mode value => ?_⟩
  · exact commitFault_locked m ((locked_eq_true_iff s e).mpr ⟨run, locked⟩)
  · exact commitFault_ne_locked (free.elim (locked_of_configure e) locked_of_free)
  · rw [commitFault_unlocked (locked_of_free free), commitFault_unlocked (locked_of_configure e rfl)]
    cases e <;> rfl
  · rw [commitFault_fieldsOnly mode ⟨notRing, notWindow, notTrunk⟩]
    split
    · exact Or.inl rfl
    · exact Or.inr rfl
  · obtain rfl : v = setupByte m := funext value
    have general (n : Fin 5) (notZero : n ≠ 0) := commitFault_eq_none_iff (m := m) (e := .general n) mode
      ⟨fun e => notZero (EntryId.general.inj e), nofun, nofun⟩
    refine ⟨(general 1 (by decide)).mpr rfl, ?_, (general 3 (by decide)).trans (fieldsLegal_codes_iff m), ?_,
      fun d => ?_, fun a => ?_, fun p => ?_, fun p k => ?_, fun k => ?_⟩
    · refine (general 2 (by decide)).trans (decide_eq_true_iff.trans ?_)
      exact ⟨fun ⟨a, b, c, d, e⟩ => ⟨⟨a, b⟩, c, d, e⟩, fun ⟨⟨a, b⟩, c, d, e⟩ => ⟨a, b, c, d, e⟩⟩
    · exact (general 4 (by decide)).trans decide_eq_true_iff
    · exact (commitFault_eq_none_iff (e := .desk d) mode ⟨nofun, nofun, nofun⟩).trans decide_eq_true_iff
    · refine (commitFault_eq_none_iff (e := .agency a) mode ⟨nofun, nofun, nofun⟩).trans (decide_eq_true_iff.trans ?_)
      exact and_assoc.symm
    · exact (commitFault_eq_none_iff (e := .phrase p) mode ⟨nofun, nofun, nofun⟩).trans decide_eq_true_iff
    · exact (commitFault_eq_none_iff (e := .codeWord p k) mode ⟨nofun, nofun, nofun⟩).mpr rfl
    · exact (commitFault_eq_none_iff (e := .convWord k) mode ⟨nofun, nofun, nofun⟩).mpr rfl

/-! ### Ranges of addresses (R26, R27) -/

theorem rangesMeet_eq_false_iff {a n b k : Nat} (first : 0 < n) (second : 0 < k) :
    rangesMeet a n b k = false ↔ ∀ x, Within x a n → ¬ Within x b k := by
  unfold rangesMeet Within
  rw [decide_eq_false_iff_not]
  constructor
  · intro apart x inA inB
    omega
  · intro apart meet
    by_cases order : a ≤ b
    · exact apart b ⟨order, meet.2⟩ ⟨le_rfl, by omega⟩
    · exact apart a ⟨le_rfl, by omega⟩ ⟨by omega, meet.1⟩

/-- What the four outcomes of a check of ranges say. -/
theorem commitFault_ranges {s : State} {e : EntryId} {m : List Host.Cell} {Legal Aligned Apart : Prop}
    (mode : s.mode = .configure) (legal : fieldsLegal m e = true ↔ Legal) (aligned : baseAligned m e = true ↔ Aligned)
    (apart : s.overlaps m e = false ↔ Apart) (once : duplicateDesk m e = false) :
    (s.commitFault e true m = some .outOfRange ↔ ¬ Legal) ∧
    (s.commitFault e true m = some .alignment ↔ Legal ∧ ¬ Aligned) ∧
    (s.commitFault e true m = some .overlap ↔ Legal ∧ Aligned ∧ ¬ Apart) ∧
    (s.commitFault e true m = none ↔ Legal ∧ Aligned ∧ Apart) := by
  rw [commitFault_unlocked (locked_of_configure e mode), ← legal, ← aligned, ← apart, once]
  cases fieldsLegal m e <;> cases baseAligned m e <;> cases s.overlaps m e <;> simp

theorem windowSize_eq (m : List Host.Cell) (w : WindowId) : Setup.windowSize m w = windowBytes m w := rfl

theorem windowBytes_pos (m : List Host.Cell) (w : WindowId) : 0 < windowBytes m w := by
  unfold windowBytes
  positivity

theorem ringBytes_pos (m : List Host.Cell) : 0 < ringBytes m := by
  unfold ringBytes
  positivity

theorem ringBytes_eq {m : List Host.Cell} (ring : setupByte m 4 ≠ 0) :
    16 * ringRecords (Setup.ringCode m) = ringBytes m := by
  have code : Setup.ringCode m = setupByte m 4 := rfl
  unfold ringRecords ringBytes
  rw [code, if_neg ring, ← Nat.mul_assoc]

theorem fieldsLegal_window_iff (m : List Host.Cell) (w : WindowId) :
    fieldsLegal m (.window w) = true ↔ WindowLegal m w := by
  unfold fieldsLegal addressLegal
  simp only [Bool.and_eq_true, decide_eq_true_eq]
  exact Iff.rfl

theorem baseAligned_window_iff (m : List Host.Cell) (w : WindowId) :
    baseAligned m (.window w) = true ↔ WindowAligned m w := decide_eq_true_iff

theorem ringMeets_eq_false_iff {m : List Host.Cell} {b k : Nat} (range : 0 < k) :
    ringMeets m b k = false ↔
      (setupByte m 4 ≠ 0 → ∀ x, Within x (Setup.ringBase m) (ringBytes m) → ¬ Within x b k) := by
  have code : Setup.ringCode m = setupByte m 4 := rfl
  unfold ringMeets
  rw [code]
  by_cases ring : setupByte m 4 = 0
  · simp [ring]
  · rw [← code, ringBytes_eq ring, code]
    simp only [ring, ne_eq, not_false_eq_true, decide_true, Bool.true_and, forall_const]
    exact rangesMeet_eq_false_iff (ringBytes_pos m) range

theorem overlaps_window_iff (s : State) (m : List Host.Cell) (w : WindowId) :
    s.overlaps m (.window w) = false ↔ WindowApart s m w := by
  have page : s.pageBase = 4096 * s.straps.toNat := Nat.mul_comm _ _
  have size (v : WindowId) : 0 < Setup.windowSize m v := windowBytes_pos m v
  unfold State.overlaps WindowApart
  simp only [Bool.or_eq_false_iff, List.any_eq_false, Bool.and_eq_true, not_and, Bool.not_eq_true, decide_eq_true_eq,
    rangesMeet_eq_false_iff (size w) (Nat.zero_lt_succ 4095), ringMeets_eq_false_iff (size w),
    rangesMeet_eq_false_iff (size w) (size _), page, ← windowSize_eq]
  constructor
  · rintro ⟨⟨offPage, offRing⟩, offWindows⟩ x inside
    exact ⟨offPage x inside, fun ring inRing => offRing ring x inRing inside,
      fun y differ setUp => offWindows y (List.mem_finRange y) ⟨differ, setUp⟩ x inside⟩
  · intro apart
    exact ⟨⟨fun x inside => (apart x inside).1, fun ring x inRing inside => (apart x inside).2.1 ring inRing⟩,
      fun y _ ⟨differ, setUp⟩ x inside => (apart x inside).2.2 y differ setUp⟩

theorem fieldsLegal_ring_iff (m : List Host.Cell) : fieldsLegal m (.general 0) = true ↔ RingLegal m := by
  have legal : fieldsLegal m (.general 0) = (addressLegal m 0 && decide (setupByte m 4 ≤ 7)) := rfl
  rw [legal, Bool.and_eq_true, decide_eq_true_iff]
  exact and_congr_left fun _ => decide_eq_true_iff

theorem baseAligned_ring_iff (m : List Host.Cell) : baseAligned m (.general 0) = true ↔ RingAligned m := by
  have code : Setup.ringCode m = setupByte m 4 := rfl
  unfold baseAligned RingAligned
  by_cases ring : setupByte m 4 = 0
  · simp [code, ring]
  · simp [← ringBytes_eq ring, code, ring]

theorem overlaps_ring_iff (s : State) (m : List Host.Cell) : s.overlaps m (.general 0) = false ↔ RingApart s m := by
  have page : s.pageBase = 4096 * s.straps.toNat := Nat.mul_comm _ _
  have size (v : WindowId) : 0 < Setup.windowSize m v := windowBytes_pos m v
  unfold State.overlaps RingApart
  simp only [decide_true, Bool.true_and, Bool.or_eq_false_iff, List.any_eq_false, Bool.and_eq_true, not_and,
    Bool.not_eq_true, ringMeets_eq_false_iff (Nat.zero_lt_succ 4095), ringMeets_eq_false_iff (size _), page]
  constructor
  · rintro ⟨offPage, offWindows⟩ ring x inside
    exact ⟨offPage ring x inside, fun y setUp => offWindows y (List.mem_finRange y) setUp ring x inside⟩
  · intro apart
    exact ⟨fun ring x inside => (apart ring x inside).1,
      fun y _ setUp ring x inside => (apart ring x inside).2 y setUp⟩

/-- Settles O26: the three checks of a window entry and of general word 0. -/
theorem committedRangesDoNotMeet : Obligations.CommittedRangesDoNotMeet := by
  intro s m mode
  exact ⟨fun w => commitFault_ranges mode (fieldsLegal_window_iff m w) (baseAligned_window_iff m w)
      (overlaps_window_iff s m w) rfl,
    commitFault_ranges mode (fieldsLegal_ring_iff m) (baseAligned_ring_iff m) (overlaps_ring_iff s m) rfl⟩

end Sys2Proof.Machine
end

section
/-!
PROOFS. The text blocks a desk reads (R130 to R132), the order in which desks are served (R133), and the grants of the fetch
engine and the report writer (R190).
-/

namespace Sys2Proof.Machine

open Sys2Proof.Claims

/-! ### From an offset to its text block (R130) -/

/-- The extent an offset lies in, of extents that begin at a text offset. -/
theorem extentAt_eq_some_iff {o start base : Nat} {e : Extent} (extents : List Extent) (from_ : start ≤ o) :
    extentAt o start extents = some (base, e) ↔
      ∃ before after, extents = before ++ e :: after ∧ base = start + (before.map Extent.length).sum ∧ base ≤ o ∧
        o < base + e.length := by
  induction extents generalizing start with
  | nil =>
    unfold extentAt
    simp
  | cons x rest ih =>
    unfold extentAt
    by_cases here : o < start + x.length
    · rw [if_pos here, Option.some_inj, Prod.mk.injEq]
      constructor
      · rintro ⟨rfl, rfl⟩
        exact ⟨[], rest, rfl, rfl, from_, here⟩
      · rintro ⟨before, after, split, rfl, le, lt⟩
        cases before with
        | nil => exact ⟨rfl, (List.cons.inj split).1⟩
        | cons y before =>
          obtain ⟨rfl, -⟩ := List.cons.inj split
          rw [List.map_cons, List.sum_cons] at le
          omega
    · rw [if_neg here, ih (Nat.not_lt.mp here)]
      constructor
      · rintro ⟨before, after, rfl, rfl, le, lt⟩
        refine ⟨x :: before, after, rfl, ?_, le, lt⟩
        rw [List.map_cons, List.sum_cons]
        omega
      · rintro ⟨before, after, split, rfl, le, lt⟩
        cases before with
        | nil =>
          obtain ⟨rfl, -⟩ := List.cons.inj split
          exact absurd lt here
        | cons y before =>
          obtain ⟨rfl, rfl⟩ := List.cons.inj split
          rw [List.map_cons, List.sum_cons] at *
          exact ⟨before, after, rfl, by omega, le, lt⟩

theorem toNat_sub_low (x : Addr) : (x - BitVec.ofNat 28 (x.toNat % 32)).toNat = 32 * (x.toNat / 32) := by
  bv_omega

theorem blockOf_eq_some_iff (r : Story) (o : Nat) (b : TextBlock) : r.blockOf o = some b ↔ HoldsOffset r o b := by
  unfold Story.blockOf HoldsOffset
  constructor
  · intro found
    split at found
    · cases found
    · rename_i base e at_
      obtain ⟨before, after, extents, baseIs, le, lt⟩ := (extentAt_eq_some_iff r.extents (Nat.zero_le o)).mp at_
      rw [Nat.zero_add] at baseIs
      obtain rfl := Option.some_inj.mp found
      exact ⟨before, e, after, extents, base, _, baseIs, le, lt, rfl, toNat_sub_low _, rfl, rfl⟩
  · rintro ⟨before, e, after, extents, base, a, baseIs, le, lt, rfl, address, first, last⟩
    have at_ := (extentAt_eq_some_iff (base := base) r.extents (Nat.zero_le o)).mpr
      ⟨before, after, extents, by omega, le, lt⟩
    rw [at_]
    refine congrArg Option.some ?_
    obtain ⟨x, y, z⟩ := b
    simp only at address first last
    rw [first, last, TextBlock.mk.injEq]
    exact ⟨BitVec.eq_of_toNat_eq ((toNat_sub_low _).trans address.symm), rfl, rfl⟩

/-! ### The read a desk is eligible for (R131, R132) -/

theorem isEmpty_eq_true_iff (g : Staging) : g.isEmpty = true ↔ g = .empty := by
  cases g <;> simp [Staging.isEmpty]

theorem highestStaged_eq (k : Desk) (cursor : Nat) :
    (match k.highestStaged with
      | some last => last + 1
      | none => cursor) = nextOffset k cursor := by
  unfold Desk.highestStaged nextOffset
  cases k.staging0.block <;> cases k.staging1.block <;> rfl

theorem nextBlock_eq (s : State) (d : DeskId) (c : SendContext) :
    s.nextBlock d c =
      if nextOffset (s.desk d) c.cursor < (s.story c.handle).textCount then
        (s.story c.handle).blockOf (nextOffset (s.desk d) c.cursor)
      else none := by
  rw [← highestStaged_eq]
  rfl

theorem eligibleRead_eq_some_iff (s : State) (d : DeskId) (b : TextBlock) :
    s.eligibleRead d = some b ↔ Eligible s d b := by
  unfold State.eligibleRead Eligible
  cases (s.desk d).context with
  | none => simp
  | some c =>
    cases segment : c.segment <;> simp only [Option.some_inj, exists_eq_left', segment, reduceCtorEq, false_and,
      true_and]
    case text =>
      rw [nextBlock_eq]
      by_cases room : (s.desk d).staging0 = .empty ∨ (s.desk d).staging1 = .empty
      · have open_ : ((s.desk d).staging0.isEmpty || (s.desk d).staging1.isEmpty) = true := by
          rw [Bool.or_eq_true, isEmpty_eq_true_iff, isEmpty_eq_true_iff]
          exact room
        rw [if_pos open_]
        by_cases more : nextOffset (s.desk d) c.cursor < (s.story c.handle).textCount
        · simp only [room, more, if_true, true_and]
          exact blockOf_eq_some_iff _ _ _
        · simp [more]
      · have full : ¬ ((s.desk d).staging0.isEmpty || (s.desk d).staging1.isEmpty) = true := by
          rw [Bool.or_eq_true, isEmpty_eq_true_iff, isEmpty_eq_true_iff]
          exact room
        rw [if_neg full]
        simp [room]

/-! ### The desk served next (R133) -/

theorem findSome?_range_eq_some_iff {α : Type} {n : Nat} {f : Nat → Option α} {x : α} :
    (List.range n).findSome? f = some x ↔ ∃ i < n, f i = some x ∧ ∀ j < i, f j = none := by
  induction n with
  | zero => simp
  | succ n ih =>
    rw [List.range_succ, List.findSome?_append]
    constructor
    · intro found
      cases before : (List.range n).findSome? f with
      | some y =>
        rw [before, Option.some_or] at found
        obtain ⟨i, inside, here, none⟩ := ih.mp (before.trans found)
        exact ⟨i, by omega, here, none⟩
      | none =>
        rw [before, Option.none_or] at found
        refine ⟨n, by omega, by simpa using found, fun j inside => ?_⟩
        exact List.findSome?_eq_none_iff.mp before j (List.mem_range.mpr inside)
    · rintro ⟨i, inside, here, none⟩
      by_cases last : i = n
      · subst last
        have before : (List.range i).findSome? f = Option.none :=
          List.findSome?_eq_none_iff.mpr fun j mem => none j (List.mem_range.mp mem)
        rw [before, Option.none_or]
        simpa using here
      · rw [ih.mpr ⟨i, by omega, here, none⟩, Option.some_or]

/-- The desk that stands a number of places after the round-robin pointer. -/
theorem val_pointer_add (p : DeskId) (i : Nat) : (p + Fin.ofNat 24 (i + 1)).val = (p.val + 1 + i) % 24 := by
  rw [Fin.val_add, Fin.val_ofNat]
  omega

theorem nextReader_eq_some_iff (s : State) (d : DeskId) (b : TextBlock) :
    s.nextReader = some (d, b) ↔ ServedNext s d b := by
  unfold State.nextReader ServedNext
  rw [findSome?_range_eq_some_iff]
  simp only [Option.map_eq_some_iff, Prod.mk.injEq, eligibleRead_eq_some_iff, Option.map_eq_none_iff]
  constructor
  · rintro ⟨i, inside, ⟨_, read, rfl, rfl⟩, before⟩
    refine ⟨read, i, inside, val_pointer_add _ _, fun j earlier e place b' read' => ?_⟩
    have same : s.fetchPointer + Fin.ofNat 24 (j + 1) = e := Fin.ext ((val_pointer_add _ _).trans place.symm)
    have none := before j earlier
    rw [same, (eligibleRead_eq_some_iff s e b').mpr read'] at none
    cases none
  · rintro ⟨read, i, inside, place, before⟩
    have same : s.fetchPointer + Fin.ofNat 24 (i + 1) = d := Fin.ext ((val_pointer_add _ _).trans place.symm)
    refine ⟨i, inside, ⟨b, by rw [same]; exact read, same, rfl⟩, fun j earlier => ?_⟩
    refine Option.eq_none_iff_forall_ne_some.mpr fun b' read' => ?_
    exact before j earlier _ (val_pointer_add _ _) b' ((eligibleRead_eq_some_iff _ _ _).mp read')

theorem exists_served_of_grantsFetch {s : State} (grant : s.grantsFetch = true) : ∃ d b, ServedNext s d b := by
  have ready : s.nextReader.isSome = true := by
    unfold State.grantsFetch State.fetchReady at grant
    simp only [Bool.and_eq_true] at grant
    obtain ⟨⟨-, ⟨some, -⟩, -⟩, -⟩ := grant
    exact some
  obtain ⟨⟨d, b⟩, next⟩ := Option.isSome_iff_exists.mp ready
  exact ⟨d, b, (nextReader_eq_some_iff s d b).mp next⟩

theorem address_mod_of_served {s : State} {d : DeskId} {b : TextBlock} (next : ServedNext s d b) :
    b.address.toNat % 32 = 0 := by
  obtain ⟨⟨c, -, -, -, -, holds⟩, -⟩ := next
  obtain ⟨_, _, _, -, _, a, -, -, -, -, address, -, -⟩ := holds
  omega

theorem grantFetch_of_served {s : State} {d : DeskId} {b : TextBlock} (grant : s.grantsFetch = true)
    (next : ServedNext s d b) :
    s.grantFetch =
      { s.onDesk d (fun k => if k.staging0 = .empty then { k with staging0 := .requested b }
          else { k with staging1 := .requested b }) with
        entries := s.entries ++
          [{ owner := .fetch d (s.desk d).epoch, access := .read, isLocal := false, result := none }]
        downBus := some (.read b.address 4)
        ownWait := 0
        lastOwn := .fetch
        fetchPointer := d } := by
  have marks : (fun k : Desk => if k.staging0.isEmpty = true then { k with staging0 := .requested b }
      else { k with staging1 := .requested b }) =
      fun k : Desk => if k.staging0 = .empty then { k with staging0 := .requested b }
        else { k with staging1 := .requested b } := by
    funext k
    simp only [isEmpty_eq_true_iff]
  unfold State.grantFetch
  rw [if_pos grant, (nextReader_eq_some_iff s d b).mpr next]
  dsimp only
  rw [marks]
  rfl

/-! ### The bytes of a record as beats (R190) -/

theorem leNat_cons_mod (b : Byte) (bs : List Byte) : leNat (b :: bs) % 256 = b.toNat := by
  unfold leNat
  have := b.isLt
  omega

theorem leNat_cons_div (b : Byte) (bs : List Byte) : leNat (b :: bs) / 256 = leNat bs := by
  rw [leNat]
  have := b.isLt
  omega

theorem beatByte_ofNat_leNat (bs : List Byte) (k : Nat) (small : 8 * k + 8 ≤ 64) (inside : k < bs.length) :
    beatByte (BitVec.ofNat 64 (leNat bs)) k = bs[k] := by
  have byte_at : ∀ (bs : List Byte) (k : Nat) (inside : k < bs.length), leNat bs / 256 ^ k % 256 = bs[k].toNat := by
    intro bs
    induction bs with
    | nil => exact fun k inside => absurd inside (Nat.not_lt_zero k)
    | cons b bs ih =>
      intro k inside
      cases k with
      | zero => rw [Nat.pow_zero, Nat.div_one, leNat_cons_mod, List.getElem_cons_zero]
      | succ k =>
        rw [Nat.pow_succ', ← Nat.div_div_eq_div_mul, leNat_cons_div, List.getElem_cons_succ]
        exact ih k (Nat.lt_of_succ_lt_succ inside)
  refine BitVec.eq_of_toNat_eq ?_
  have power : 2 ^ 64 = 256 ^ k * (256 * 2 ^ (64 - 8 * k - 8)) := by
    rw [show (256 : Nat) = 2 ^ 8 from rfl, ← pow_mul, ← pow_add, ← pow_add]
    congr 1
    omega
  unfold beatByte
  rw [BitVec.extractLsb'_toNat, BitVec.toNat_ofNat, Nat.shiftRight_eq_div_pow, pow_mul, power,
    show 2 ^ 8 = 256 from rfl, Nat.mod_mul_right_div_self, Nat.mod_mul_right_mod]
  exact byte_at bs k inside

theorem beatsBytes_pair {bytes : List Byte} (length : bytes.length = 16) :
    beatsBytes [beatOf (bytes.drop 0), beatOf (bytes.drop 8)] = bytes := by
  have beat (bs : List Byte) (eight : 8 ≤ bs.length) : (List.range 8).map (beatByte (beatOf bs)) = bs.take 8 := by
    refine List.ext_getElem (by simp; omega) fun k inRange inBeat => ?_
    rw [List.length_map, List.length_range] at inRange
    rw [List.getElem_map, List.getElem_range]
    exact beatByte_ofNat_leNat (bs.take 8) k (by omega) inBeat
  unfold beatsBytes
  rw [List.flatMap_cons, List.flatMap_cons, List.flatMap_nil, beat _ (by simp; omega), beat _ (by simp; omega),
    List.append_nil, List.drop_zero, List.take_of_length_le (l := bytes.drop 8) (by simp; omega), List.take_append_drop]

theorem bytes_eq_recordBytes (r : Record) (missed : Nat) : r.bytes missed = recordBytes r missed := by
  unfold Record.bytes recordBytes leBytes
  simp [List.range_succ, byteOf, byte]

theorem length_recordBytes (r : Record) (missed : Nat) : (recordBytes r missed).length = 16 := by
  unfold recordBytes
  simp

/-- Settles O20: the fetch engine by the desk served next, the report writer by the record at the head of its queue. -/
theorem fetchReadAndReportWriteGranted : Obligations.FetchReadAndReportWriteGranted := by
  refine ⟨fun s d b grant next => ⟨address_mod_of_served next, ?_⟩, fun s grant => exists_served_of_grantsFetch grant,
    fun s r more grant offers queue => ⟨length_recordBytes r _, ?_⟩⟩
  · exact congrArg Host.Outcome.next (grantFetch_of_served grant next)
  · refine ⟨_, _, beatsBytes_pair (length_recordBytes r s.writer.missed), congrArg Host.Outcome.next ?_⟩
    unfold State.grantRecord
    rw [if_pos ⟨grant, offers⟩, queue]
    dsimp only
    rw [bytes_eq_recordBytes]
    rfl

end Sys2Proof.Machine
end

section
/-!
PROOFS. SNAPSHOT (R193): the image of each kind, part by part (Tables 11-4 to 11-6).
-/

namespace Sys2Proof.Machine

open Sys2Proof.Claims

/-! ### Bits and sets as bytes -/

theorem bitsByte_two (a b : Bool) : bitsByte [a, b] = byte (bit a + 2 * bit b) := by
  cases a <;> cases b <;> rfl

theorem bitsByte_three (a b c : Bool) : bitsByte [a, b, c] = byte (bit a + 2 * bit b + 4 * bit c) := by
  cases a <;> cases b <;> cases c <;> rfl

theorem bitsByte_six (a b c d e f : Bool) :
    bitsByte [a, b, c, d, e, f] = byte (bit a + 2 * bit b + 4 * bit c + 8 * bit d + 16 * bit e + 32 * bit f) := by
  have sum : [a, b, c, d, e, f].foldr (fun b n => bitOf b + 2 * n) 0 =
      bit a + 2 * bit b + 4 * bit c + 8 * bit d + 16 * bit e + 32 * bit f := by
    change bit a + 2 * (bit b + 2 * (bit c + 2 * (bit d + 2 * (bit e + 2 * (bit f + 2 * 0))))) = _
    omega
  unfold bitsByte
  rw [sum]
  rfl

theorem foldl_filter_eq_sum (p : DeskId → Bool) (l : List DeskId) (n : Nat) :
    (l.filter p).foldl (fun n d => n + 2 ^ d.val) n = n + (l.map fun d => bit (p d) * 2 ^ d.val).sum := by
  induction l generalizing n with
  | nil => rfl
  | cons d l ih =>
    rw [List.map_cons, List.sum_cons, List.filter_cons]
    cases p d with
    | false =>
      rw [if_neg Bool.false_ne_true, ih]
      unfold bit
      simp
    | true =>
      rw [if_pos rfl, List.foldl_cons, ih]
      unfold bit
      simp
      omega

theorem deskSetBytes_eq (p : DeskId → Bool) : deskSetBytes p = imageDesks p := by
  unfold deskSetBytes imageDesks allDesks
  rw [foldl_filter_eq_sum, Nat.zero_add]

theorem handleByte_eq (h : Option HandleId) : handleByte h = imageHandle h := by
  cases h <;> rfl

theorem length_leBytes (k n : Nat) : (leBytes k n).length = k := by
  unfold leBytes
  simp

/-! ### The parts of the general image (Table 11-4) -/

theorem length_generalPart (s : State) : s.generalPart.length = 32 := by
  unfold State.generalPart
  simp [length_leBytes]

theorem usedStories_eq (s : State) :
    s.stories.toList.countP (fun r => decide (r.state ≠ .free)) =
      (List.finRange 128).countP fun h => decide ((s.story h).state ≠ .free) := by
  rw [toList_eq_map_finRange, List.countP_map]
  rfl

theorem generalPart_eq (s : State) : s.generalPart = generalImage s := by
  have hold : byteOf ((s.hold.map fun h => h.cause.code).getD 0) =
      match s.hold with
      | none => 0
      | some ⟨.tableFull _ _, _, _⟩ => 1
      | some ⟨.ringFull _, _, _⟩ => 2
      | some ⟨.fifoFull, _, _⟩ => 3 := by
    match s.hold with
    | none => rfl
    | some ⟨.tableFull _ _, _, _⟩ => rfl
    | some ⟨.ringFull _, _, _⟩ => rfl
    | some ⟨.fifoFull, _, _⟩ => rfl
  have fetches : s.fetchEntries = s.entries.countP fun e => match e.owner with
      | .fetch _ _ => true
      | _ => false := by
    unfold State.fetchEntries
    congr 1
    funext e
    cases e.owner <;> rfl
  have spent : s.spentList.length = s.completion.countP fun h => decide ((s.story h).state = .spent) :=
    List.countP_eq_length_filter.symm
  unfold State.generalPart generalImage
  rw [hold, fetches, spent, bitsByte_three, usedStories_eq]
  cases s.mode <;> rfl

theorem length_windowPart (s : State) (w : WindowId) : (s.windowPart w).length = 16 := by
  unfold State.windowPart addrBytes
  simp [length_leBytes]

theorem windowPart_eq (s : State) (w : WindowId) : s.windowPart w = windowImage s w := by
  have parse : byteOf (s.window w).parse.code = match (s.window w).parse with
      | .hunt => 0
      | .lead => 1
      | .text => 2
      | .skip => 3 := by
    cases (s.window w).parse <;> rfl
  unfold State.windowPart windowImage addrBytes
  dsimp only
  rw [parse]
  simp only [bitsByte_two, handleByte_eq]
  rfl

theorem length_trunkPart (s : State) (t : TrunkId) : (s.trunkPart t).length = 24 := by
  unfold State.trunkPart
  cases received : (s.trunk t).bringUp.received <;> simp [received, length_leBytes]

theorem trunkPart_eq (s : State) (t : TrunkId) : s.trunkPart t = trunkImage s t := by
  have state : byteOf (s.trunk t).bringUp.state.code = match (s.trunk t).bringUp.state with
      | .down => (0 : Byte)
      | .search => 1
      | .confirm => 2
      | .map => 3
      | .settle => 4
      | .up => 5
      | .broken => 6 := by
    cases (s.trunk t).bringUp.state <;> rfl
  have page : byteOf (((s.trunk t).bringUp.page.map MapPage.index).getD 0) = match (s.trunk t).bringUp.page with
      | some p => byte p.index
      | none => 0 := by
    cases (s.trunk t).bringUp.page <;> rfl
  have transmitter : transmitterByte (s.trunk t).transmitter = match (s.trunk t).transmitter with
      | none => 0
      | some ⟨.bringUp _, _, _, _, _, _, _⟩ => 1
      | some ⟨.data, _, _, _, _, _, _⟩ => 2 := by
    match (s.trunk t).transmitter with
    | none => rfl
    | some ⟨.bringUp _, _, _, _, _, _, _⟩ => rfl
    | some ⟨.data, _, _, _, _, _, _⟩ => rfl
  have alignment : byteOf (s.trunk t).receiver.alignment.code = match (s.trunk t).receiver.alignment with
      | .off => 0
      | .measuring => 1
      | .seeking => 2
      | .locking => 3
      | .framed => 4
      | .data => 5 := by
    cases (s.trunk t).receiver.alignment <;> rfl
  unfold State.trunkPart trunkImage
  dsimp only
  rw [state, page, transmitter, alignment]
  simp only [bitsByte_two]
  cases (s.trunk t).receiver.capture <;> cases (s.trunk t).bringUp.received <;> rfl

/-! ### The parts of a story page and a desk page (Tables 11-5 and 11-6) -/

theorem length_storyPart (s : State) (h : HandleId) : (s.storyPart h).length = 16 := by
  unfold State.storyPart deskSetBytes
  simp [length_leBytes]

theorem storyPart_eq (s : State) (h : HandleId) : s.storyPart h = storyImage s h := by
  unfold State.storyPart storyImage
  simp only [deskSetBytes_eq]
  rfl

theorem length_deskPart (s : State) (d : DeskId) : (s.deskPart d).length = 16 := by
  unfold State.deskPart
  simp [length_leBytes]

theorem contextByte_some (c : SendContext) :
    contextByte (some c) = byte (c.segment.code + (if c.kind = .killNotice then 4 else 0) + match c.segment with
      | .notice k _ _ => 16 * k.code
      | _ => 0) := by
  unfold contextByte
  dsimp only
  cases c.kind <;> cases c.segment <;> rfl

theorem savedByte_some (v : SavedContext) :
    savedByte (some v) = byte (v.resume.code + match v.cutNotice with
      | some k => 16 * k.code
      | none => 0) := by
  unfold savedByte
  dsimp only
  cases v.cutNotice <;> rfl

theorem deskPart_eq (s : State) (d : DeskId) : s.deskPart d = deskImage s d := by
  have staging (g : Staging) : g.code = stagingState g := by
    cases g <;> rfl
  unfold State.deskPart deskImage
  simp only [bitsByte_six, handleByte_eq, staging]
  cases (s.desk d).context with
  | none =>
    cases (s.desk d).saved with
    | none => rfl
    | some v =>
      rw [savedByte_some]
      rfl
  | some c =>
    rw [contextByte_some]
    cases (s.desk d).saved with
    | none => rfl
    | some v =>
      rw [savedByte_some]
      rfl

/-! ### Images made of parts -/

theorem length_flatMap_parts {α : Type} {n : Nat} {f : α → List Byte} (each : ∀ x, (f x).length = n) (l : List α) :
    (l.flatMap f).length = n * l.length := by
  rw [List.length_flatMap, List.map_congr_left fun x _ => each x, List.map_const', List.sum_replicate, smul_eq_mul,
    Nat.mul_comm]

/-- The part at a place of an image whose parts have one length. -/
theorem part_flatMap {α : Type} {n : Nat} {f : α → List Byte} (each : ∀ x, (f x).length = n) (l : List α) (i : Nat)
    (inside : i < l.length) (rest : List Byte) : ((l.flatMap f ++ rest).drop (n * i)).take n = f l[i] := by
  induction l generalizing i with
  | nil => exact absurd inside (Nat.not_lt_zero i)
  | cons x l ih =>
    rw [List.flatMap_cons, List.append_assoc]
    cases i with
    | zero => rw [Nat.mul_zero, List.drop_zero, List.getElem_cons_zero, List.take_left' (each x)]
    | succ i =>
      rw [Nat.mul_succ, Nat.add_comm, ← List.drop_drop, List.drop_left' (each x), List.getElem_cons_succ]
      exact ih i (Nat.lt_of_succ_lt_succ inside)

theorem image_general (s : State) :
    s.image 0 = s.generalPart ++ (allWindows.flatMap s.windowPart ++ allTrunks.flatMap s.trunkPart) :=
  List.append_assoc _ _ _

theorem image_stories (s : State) {k : Nat} (first : 1 ≤ k) (last : k ≤ 8) :
    s.image k = ((allHandles.drop (16 * (k - 1))).take 16).flatMap s.storyPart := by
  interval_cases k <;> rfl

theorem length_image (s : State) {k : Nat} (kind : k ≤ 10) : (s.image k).length = 256 := by
  have windows := length_flatMap_parts (length_windowPart s) allWindows
  have trunks := length_flatMap_parts (length_trunkPart s) allTrunks
  have desks (l : List DeskId) := length_flatMap_parts (length_deskPart s) l
  obtain rfl | stories | rfl | rfl : k = 0 ∨ (1 ≤ k ∧ k ≤ 8) ∨ k = 9 ∨ k = 10 := by omega
  · rw [image_general, List.length_append, List.length_append, windows, trunks, length_generalPart]
    rfl
  · rw [image_stories s stories.1 stories.2, length_flatMap_parts (length_storyPart s), List.length_take,
      List.length_drop, allHandles, List.length_finRange]
    omega
  · exact (desks _).trans rfl
  · have page : s.image 10 = (allDesks.drop 16).flatMap s.deskPart ++ List.replicate 128 0 := rfl
    rw [page, List.length_append, desks, List.length_replicate, List.length_drop, allDesks, List.length_finRange]

theorem image_story (s : State) (h : HandleId) :
    ((s.image (h.val / 16 + 1)).drop (16 * (h.val % 16))).take 16 = storyImage s h := by
  have inside : h.val % 16 < ((allHandles.drop (16 * (h.val / 16))).take 16).length := by
    rw [List.length_take, List.length_drop, allHandles, List.length_finRange]
    omega
  have named : ((allHandles.drop (16 * (h.val / 16))).take 16)[h.val % 16] = h := by
    rw [List.getElem_take, List.getElem_drop]
    unfold allHandles
    rw [List.getElem_finRange]
    exact Fin.ext (Nat.div_add_mod _ _)
  rw [image_stories s (by omega) (by omega), Nat.add_sub_cancel, ← storyPart_eq,
    ← List.append_nil (List.flatMap _ _), part_flatMap (length_storyPart s) _ _ inside, named]

theorem image_desk (s : State) (d : DeskId) :
    ((s.image (d.val / 16 + 9)).drop (16 * (d.val % 16))).take 16 = deskImage s d := by
  rw [← deskPart_eq]
  by_cases low : d.val < 16
  · have page : s.image (d.val / 16 + 9) = (allDesks.take 16).flatMap s.deskPart ++ [] := by
      rw [Nat.div_eq_of_lt low, List.append_nil]
      rfl
    have inside : d.val % 16 < (allDesks.take 16).length := by
      rw [Nat.mod_eq_of_lt low]
      exact low
    have named : (allDesks.take 16)[d.val % 16] = d := by
      rw [List.getElem_take]
      unfold allDesks
      rw [List.getElem_finRange]
      exact Fin.ext (Nat.mod_eq_of_lt low)
    rw [page, part_flatMap (length_deskPart s) _ _ inside, named]
  · have quotient : d.val / 16 = 1 := by omega
    have page : s.image (d.val / 16 + 9) = (allDesks.drop 16).flatMap s.deskPart ++ List.replicate 128 0 := by
      rw [quotient]
      rfl
    have inside : d.val % 16 < (allDesks.drop 16).length := by
      rw [List.length_drop, allDesks, List.length_finRange]
      omega
    have named : (allDesks.drop 16)[d.val % 16] = d := by
      rw [List.getElem_drop]
      unfold allDesks
      rw [List.getElem_finRange]
      exact Fin.ext (by simp only [Fin.val_cast]; omega)
    rw [page, part_flatMap (length_deskPart s) _ _ inside, named]

theorem image_window (s : State) (w : WindowId) :
    ((s.image 0).drop (0x20 + 0x10 * w.val)).take 0x10 = windowImage s w := by
  have inside : w.val < allWindows.length := w.isLt
  rw [image_general, ← List.drop_drop, List.drop_left' (length_generalPart s),
    part_flatMap (length_windowPart s) _ _ inside, ← windowPart_eq]
  exact congrArg s.windowPart (List.getElem_finRange _)

theorem image_trunk (s : State) (t : TrunkId) :
    ((s.image 0).drop (0xA0 + 0x18 * t.val)).take 0x18 = trunkImage s t := by
  have inside : t.val < allTrunks.length := t.isLt
  have before : (s.generalPart ++ allWindows.flatMap s.windowPart).length = 0xA0 := by
    rw [List.length_append, length_flatMap_parts (length_windowPart s), length_generalPart]
    rfl
  rw [image_general, ← List.append_assoc, ← List.drop_drop, List.drop_left' before,
    ← List.append_nil (allTrunks.flatMap _), part_flatMap (length_trunkPart s) _ _ inside, ← trunkPart_eq]
  exact congrArg s.trunkPart (List.getElem_finRange _)

/-- Settles O39: BUSY while a snapshot is in progress, and the image of each kind by its parts. -/
theorem snapshotCapturesImage : Obligations.SnapshotCapturesImage := by
  refine ⟨fun s w more hd code kind => ?_, fun s => ⟨fun k => length_image s, ?_, image_window s, image_trunk s,
    image_story s, image_desk s, ?_⟩⟩
  · have inRange : ¬ 10 < w.target.toNat := by omega
    have performed : s.perform .snapshot w =
        if s.writer.snapshot.isSome then .error .busy
        else .ok (s.onWriter fun x =>
          { x with snapshot := some { kind := w.target.toNat, image := s.image w.target.toNat, issued := 0 } }) :=
      if_neg inRange
    refine ⟨fun busy => ?_, fun idle => ?_⟩
    · exact exec_refused (k := .snapshot) hd code rfl (performed.trans (if_pos (Option.isSome_iff_ne_none.mpr busy)))
    · exact exec_performed (k := .snapshot) hd code rfl (performed.trans (if_neg (by simp [idle])))
  · rw [image_general, List.take_left' (length_generalPart s), generalPart_eq]
  · exact List.drop_left' (length_flatMap_parts (length_deskPart s) _)

end Sys2Proof.Machine
end

section
/-!
PROOFS. The frame boundaries of a transmitter (R144, R146), the measurement and the frame pairs (R159 to R161), breaks (R157,
R182), and a trunk that is lost (R164, R165, R181, R186).
-/

namespace Sys2Proof.Machine

open Sys2Proof.Claims

/-! ### Frames begun (R144, R146) -/

theorem beginFrame_eq (s : State) (u : TrunkId) :
    s.beginFrame u = s.onTrunk u fun k =>
      { k with transmitter := some (firstSymbol s u
          (if k.bringUp.state = .up then .data else .bringUp (s.offeredWord u))) } := rfl

/-- Settles O50: whether the boundary is reached, and whether the transmitter is stopping. -/
theorem frameChosenAtBoundary : Obligations.FrameChosenAtBoundary := by
  intro s u f transmitter
  have boundary : s.atBoundary u = true ↔ f.stopping = false ∧ (f.kind = .data → f.symbol = s.slotCount u + 1) := by
    unfold State.atBoundary
    rw [transmitter]
    cases kind : f.kind <;> simp [kind]
  have mark : s.enterMark u = if f.stopping then
      (if (s.trunk u).bringUp.state = .down then s.onTrunk u fun k => { k with transmitter := none } else s.beginFrame u)
      else s := by
    unfold State.enterMark
    rw [transmitter]
  refine ⟨fun running out last => congrArg Host.Outcome.next ?_, fun off => congrArg Host.Outcome.next ?_,
    fun stopping down => congrArg Host.Outcome.next ?_, fun stopping out => congrArg Host.Outcome.next ?_,
    fun running => congrArg Host.Outcome.next ?_⟩
  · exact (if_pos ⟨boundary.mpr ⟨running, last⟩, out⟩).trans (beginFrame_eq s u)
  · refine if_neg fun ⟨at_, _⟩ => ?_
    obtain ⟨running, last⟩ := boundary.mp at_
    rcases off with stopping | ⟨data, inside⟩
    · exact Bool.false_ne_true (running.symm.trans stopping)
    · exact inside (last data)
  · rw [mark, if_pos stopping, if_pos down]
  · rw [mark, if_pos stopping, if_neg out, beginFrame_eq]
  · rw [mark, if_neg (by simp [running])]

/-! ### Measurement and frame pairs (R159 to R161) -/

theorem framePair_of_seeking {s : State} {u : TrunkId} (seeking : (s.trunk u).receiver.alignment = .seeking) (found : Bool) :
    s.framePair u found = if found then
      s.onReceiver u fun r => { r with alignment := .locking, lock := some { count := 1, offset := 1 }, unitCount := 0 }
      else s := by
  unfold State.framePair
  dsimp only
  rw [seeking]

theorem framePair_lost {s : State} {u : TrunkId} (locking : (s.trunk u).receiver.alignment = .locking) :
    s.framePair u false = s.onReceiver u fun r => { r with alignment := .seeking, lock := none } := by
  unfold State.framePair
  dsimp only
  rw [locking]

theorem framePair_again {s : State} {u : TrunkId} {l : Lock} (locking : (s.trunk u).receiver.alignment = .locking)
    (lock : (s.trunk u).receiver.lock = some l) :
    s.framePair u true = if l.count < 2 then s.onReceiver u fun r => { r with lock := some { count := l.count + 1, offset := 1 } }
      else s.onReceiver u fun r => { r with alignment := .framed, lock := none, ref := some lockedRef, missCount := 0 } := by
  unfold State.framePair
  dsimp only
  rw [locking, lock]

/-- Settles O53: the estimate that fits or not, and the pairs in order. -/
theorem measurementThenThreePairs : Obligations.MeasurementThenThreePairs := by
  rintro s u a rfl
  have fits (n : Nat) : unitFits n = true ↔ 14 ≤ n ∧ n ≤ 18 := decide_eq_true_iff
  refine ⟨fun n measuring low high => congrArg Host.Outcome.next ?_,
    fun n t measuring off tIs => congrArg Host.Outcome.next ?_, fun n other => congrArg Host.Outcome.next (if_neg other),
    fun seeking => ⟨congrArg Host.Outcome.next (framePair_of_seeking seeking false),
      congrArg Host.Outcome.next (framePair_of_seeking seeking true)⟩,
    fun locking => ⟨congrArg Host.Outcome.next (framePair_lost locking), fun l lock =>
      ⟨fun first => congrArg Host.Outcome.next ?_, fun second => congrArg Host.Outcome.next ?_⟩⟩⟩
  · exact (if_pos measuring).trans (if_pos ((fits n).mpr ⟨low, high⟩))
  · refine (if_pos measuring).trans ((if_neg fun fit => ?_).trans ?_)
    · have := (fits n).mp fit
      omega
    · rw [tIs]
      rfl
  · rw [framePair_again locking lock, first]
    rfl
  · rw [framePair_again locking lock, second]
    rfl

/-! ### A trunk that leaves UP (R181, R182, R184, R186) -/

theorem report_onTrunk (s : State) (r : Record) (u : TrunkId) (f : Trunk → Trunk) :
    (s.report r).onTrunk u f = (s.onTrunk u f).report r := by
  rw [report_eq_onWriter, report_eq_onWriter]
  rfl

theorem report_onReceiver (s : State) (r : Record) (u : TrunkId) (f : Receiver → Receiver) :
    (s.report r).onReceiver u f = (s.onReceiver u f).report r := report_onTrunk s r u _

theorem report_onBringUp (s : State) (r : Record) (u : TrunkId) (f : BringUp → BringUp) :
    (s.report r).onBringUp u f = (s.onBringUp u f).report r := report_onTrunk s r u _

theorem onTrunk_iff_of_setup {s t : State} (setup : t.setup = s.setup) (u : TrunkId) (d : DeskId) :
    OnTrunk t u d ↔ OnTrunk s u d := by
  unfold OnTrunk State.slotCount State.slotNumber
  rw [setup]

theorem afterUp_eq (s : State) (u : TrunkId) :
    s.afterUp u =
      { s.onBringUp u (fun b => { b with limitTimer := if s.bringUpLimit u = 0 then none else some 0 }) with
        desks := (s.afterUp u).desks } :=
  desksLoseLine_eq _ u

theorem desk_afterUp_on {s : State} {u : TrunkId} {d : DeskId} (on : OnTrunk s u d) :
    (s.afterUp u).desk d = { s.desk d with line := true, farStop := false } :=
  desk_desksLoseLine_on ((onTrunk_iff_of_setup rfl u d).mpr on)

theorem desk_afterUp_off {s : State} {u : TrunkId} {d : DeskId} (off : ¬ OnTrunk s u d) :
    (s.afterUp u).desk d = s.desk d :=
  desk_desksLoseLine_off (mt (onTrunk_iff_of_setup rfl u d).mp off)

/-- A trunk's entry to SEARCH from UP, its line not in break. -/
theorem enterSearch_of_up {s : State} {u : TrunkId} (up : (s.trunk u).bringUp.state = .up)
    (whole : (s.trunk u).receiver.inBreak = false) : s.enterSearch u = (searching s u).afterUp u := by
  have move : (s.moveTrunk u .search .measuring).onReceiver u (fun r => { r with mismatch := false }) = searching s u := by
    rw [moveTrunk_eq]
    exact onTrunk_onTrunk s u _ _
  unfold State.enterSearch
  simp only [move, isUp_eq_true up, whole, if_true, Bool.false_eq_true, if_false]

/-- What SEARCH keeps of a receiver is unchanged by the changes that the frame tracker makes of it. -/
theorem searching_onReceiver {s : State} {u : TrunkId} {f : Receiver → Receiver}
    (same : fresh (f (s.trunk u).receiver) .measuring false = fresh (s.trunk u).receiver .measuring false) :
    searching (s.onReceiver u f) u = searching s u := by
  unfold searching State.onReceiver
  rw [onTrunk_onTrunk]
  refine onTrunk_congr _ ?_
  simp only [same]

/-- TRUNK_LOST of a trunk that was UP, with the switch-window count as it stands. -/
theorem lostFrom_loseTrunk {s : State} {u : TrunkId} {f : Receiver → Receiver} (reason : Nat)
    (up : (s.trunk u).bringUp.state = .up) (whole : (f (s.trunk u).receiver).inBreak = false)
    (same : fresh (f (s.trunk u).receiver) .measuring false = fresh (s.trunk u).receiver .measuring false) :
    LostFrom s u reason (f (s.trunk u).receiver).switchWindow ((s.onReceiver u f).loseTrunk u reason) := by
  have lost : (s.onReceiver u f).loseTrunk u reason =
      ((searching s u).report
        (plain s .trunkLost (byte u.val) [byte reason, byte (f (s.trunk u).receiver).switchWindow])).afterUp u := by
    unfold State.loseTrunk
    rw [reportPlain_eq, enterSearch_of_up (by simpa using up) (by simpa using whole), ← searching_onReceiver same,
      trunk_onReceiver, if_pos rfl]
    unfold searching
    rw [report_onTrunk]
    rfl
  have setup : ∀ r, ((searching s u).report r).setup = s.setup := fun r => report_setup _ r
  have desk : ∀ r d, ((searching s u).report r).desk d = s.desk d := fun r d => desk_report _ r d
  refine ⟨?_, fun d on => ?_, fun d off => ?_⟩
  · rw [lost, afterUp_eq, report_onBringUp]
    unfold State.bringUpLimit
    rw [setup]
  · rw [lost, desk_afterUp_on ((onTrunk_iff_of_setup (setup _) u d).mpr on), desk]
  · rw [lost, desk_afterUp_off (mt (onTrunk_iff_of_setup (setup _) u d).mp off), desk]

/-! ### Breaks (R157, R182) -/

theorem atRun_inBreak (r : Receiver) (level : Level) (b : Bool) :
    { r.atRun level with inBreak := b } =
      { r with
        inBreak := b, run := 256, accepted := level
        lastSample := if r.accepted = level ∧ r.run = 256 then r.lastSample else level } := by
  unfold Receiver.atRun
  by_cases stood : r.accepted = level ∧ r.run = 256
  · rw [if_pos stood, if_pos stood, ← stood.1, ← stood.2]
  · rw [if_neg stood, if_neg stood]

/-- A trunk in BROKEN from another state, its desks apart: the limit timer starts when it was UP. -/
def brokenTrunk (s : State) (u : TrunkId) : State := s.onTrunk u fun k =>
  { k with
    receiver := fresh k.receiver .off k.receiver.mismatch
    bringUp :=
      { k.bringUp with
        state := .broken, received := none, page := none, linkTimer := none
        limitTimer :=
          if k.bringUp.state ≠ .up then k.bringUp.limitTimer
          else if s.bringUpLimit u = 0 then none else some 0 } }

theorem enterBroken_of_up {s : State} {u : TrunkId} (up : (s.trunk u).bringUp.state = .up) :
    s.enterBroken u = (s.moveTrunk u .broken .off).afterUp u :=
  if_pos (isUp_eq_true up)

theorem enterBroken_of_not_up {s : State} {u : TrunkId} (notUp : (s.trunk u).bringUp.state ≠ .up) :
    s.enterBroken u = s.moveTrunk u .broken .off :=
  if_neg (by simp [isUp_eq_false notUp])

theorem enterBroken_eq (s : State) (u : TrunkId) :
    s.enterBroken u = { brokenTrunk s u with desks := (s.enterBroken u).desks } := by
  by_cases up : (s.trunk u).bringUp.state = .up
  · have timed : (s.moveTrunk u .broken .off).onBringUp u
        (fun b => { b with limitTimer := if (s.moveTrunk u .broken .off).bringUpLimit u = 0 then none else some 0 }) =
        brokenTrunk s u := by
      have setup : (s.moveTrunk u .broken .off).bringUpLimit u = s.bringUpLimit u := rfl
      rw [setup, moveTrunk_eq]
      unfold State.onBringUp brokenTrunk
      rw [onTrunk_onTrunk]
      refine onTrunk_congr _ ?_
      simp [up]
    rw [enterBroken_of_up up, afterUp_eq, timed]
  · have untimed : s.moveTrunk u .broken .off = brokenTrunk s u := by
      rw [moveTrunk_eq]
      refine onTrunk_congr _ ?_
      simp [up]
    rw [enterBroken_of_not_up up, untimed]

theorem desk_enterBroken_on {s : State} {u : TrunkId} {d : DeskId} (up : (s.trunk u).bringUp.state = .up)
    (on : OnTrunk s u d) : (s.enterBroken u).desk d = { s.desk d with line := true, farStop := false } := by
  rw [enterBroken_of_up up, desk_afterUp_on (s := s.moveTrunk u .broken .off) on, moveTrunk_eq, desk_onTrunk]

theorem desk_enterBroken_off {s : State} {u : TrunkId} {d : DeskId}
    (off : (s.trunk u).bringUp.state ≠ .up ∨ ¬ OnTrunk s u d) : (s.enterBroken u).desk d = s.desk d := by
  by_cases up : (s.trunk u).bringUp.state = .up
  · rw [enterBroken_of_up up, moveTrunk_eq]
    exact desk_afterUp_off (s := s.onTrunk u _) (off.resolve_left (· up))
  · rw [enterBroken_of_not_up up, moveTrunk_eq, desk_onTrunk]

theorem handBreakStart_stands {s : State} {u : TrunkId}
    (stands : (s.trunk u).bringUp.state = .down ∨ (s.trunk u).bringUp.state = .broken) : s.handBreakStart u = s := by
  unfold State.handBreakStart
  rcases stands with state | state <;> rw [state]

theorem handBreakStart_breaks {s : State} {u : TrunkId} (notDown : (s.trunk u).bringUp.state ≠ .down)
    (notBroken : (s.trunk u).bringUp.state ≠ .broken) : s.handBreakStart u = s.enterBroken u := by
  unfold State.handBreakStart
  split
  case h_1 state => exact absurd state notDown
  case h_2 state => exact absurd state notBroken
  all_goals rfl

/-- BROKEN entered after a change of the receiver and a report of it. -/
theorem enterBroken_reported (s : State) (u : TrunkId) (r : Record) {f : Receiver → Receiver}
    (keeps : ∀ x, (f x).mismatch = x.mismatch) :
    ((s.onReceiver u f).report r).enterBroken u =
      { (s.onTrunk u fun k =>
          { k with
            receiver := fresh (f k.receiver) .off k.receiver.mismatch
            bringUp :=
              { k.bringUp with
                state := .broken, received := none, page := none, linkTimer := none
                limitTimer :=
                  if k.bringUp.state ≠ .up then k.bringUp.limitTimer
                  else if s.bringUpLimit u = 0 then none else some 0 } }).report r with
        desks := (((s.onReceiver u f).report r).enterBroken u).desks } := by
  have moved : brokenTrunk ((s.onReceiver u f).report r) u = (s.onTrunk u fun k =>
      { k with
        receiver := fresh (f k.receiver) .off k.receiver.mismatch
        bringUp :=
          { k.bringUp with
            state := .broken, received := none, page := none, linkTimer := none
            limitTimer :=
              if k.bringUp.state ≠ .up then k.bringUp.limitTimer
              else if s.bringUpLimit u = 0 then none else some 0 } }).report r := by
    have limit : ((s.onReceiver u f).report r).bringUpLimit u = s.bringUpLimit u := by
      unfold State.bringUpLimit
      rw [report_setup]
      rfl
    unfold brokenTrunk
    rw [limit, report_onTrunk]
    refine congrArg (State.report · r) ((onTrunk_onTrunk s u _ _).trans (onTrunk_congr _ ?_))
    simp only [keeps]
  rw [← moved]
  exact enterBroken_eq _ u

theorem breakStart_of_clear {s : State} {u : TrunkId} (clear : (s.trunk u).receiver.inBreak = false) :
    s.breakStart u = ((s.onReceiver u fun r => { r.atRun .space with inBreak := true }).report
      (plain s .lineBreak (byte u.val) [byte (s.trunk u).bringUp.state.code])).handBreakStart u := by
  unfold State.breakStart
  rw [if_neg (by simp [clear])]
  dsimp only
  rw [reportPlain_eq, trunk_onReceiver, if_pos rfl]
  rfl

theorem breakEnd_of_break {s : State} {u : TrunkId} (inBreak : (s.trunk u).receiver.inBreak = true) :
    s.breakEnd u =
      if (s.trunk u).bringUp.state = .broken then
        ((s.onReceiver u fun r => { r.atRun .mark with inBreak := false }).report
          (plain s .lineMark (byte u.val) [byte (s.trunk u).bringUp.state.code])).enterSearch u
      else (s.onReceiver u fun r => { r.atRun .mark with inBreak := false }).report
        (plain s .lineMark (byte u.val) [byte (s.trunk u).bringUp.state.code]) := by
  unfold State.breakEnd
  rw [if_pos inBreak]
  dsimp only
  rw [reportPlain_eq, trunk_report, trunk_onReceiver, if_pos rfl]
  rfl

/-- Settles O52: LINE_BREAK and LINE_MARK, and the trunk taken to BROKEN and on to SEARCH. -/
theorem breaksMoveTheTrunk : Obligations.BreaksMoveTheTrunk := by
  intro s u low high lowIs highIs
  have lowEq : (fun r : Receiver => { r.atRun .space with inBreak := true }) = low :=
    funext fun r => (atRun_inBreak r .space true).trans (lowIs r).symm
  have highEq : (fun r : Receiver => { r.atRun .mark with inBreak := false }) = high :=
    funext fun r => (atRun_inBreak r .mark false).trans (highIs r).symm
  refine ⟨fun inBreak => congrArg Host.Outcome.next (if_pos inBreak),
    fun clear => congrArg Host.Outcome.next (if_neg (by simp [clear])),
    fun clear => ⟨fun stands => congrArg Host.Outcome.next ?_, fun notDown notBroken => ⟨s.breakStart u, rfl, ?_⟩⟩,
    fun inBreak => congrArg Host.Outcome.next ?_⟩
  · rw [breakStart_of_clear clear, lowEq, handBreakStart_stands (by simpa using stands)]
    rfl
  · have broken : s.breakStart u = ((s.onReceiver u low).report
        (plain s .lineBreak (byte u.val) [byte (s.trunk u).bringUp.state.code])).enterBroken u := by
      rw [breakStart_of_clear clear, lowEq]
      exact handBreakStart_breaks (by simpa using notDown) (by simpa using notBroken)
    have onSame (d : DeskId) : OnTrunk ((s.onReceiver u low).report
        (plain s .lineBreak (byte u.val) [byte (s.trunk u).bringUp.state.code])) u d ↔ OnTrunk s u d :=
      onTrunk_iff_of_setup (report_setup _ _) u d
    rw [broken]
    refine ⟨enterBroken_reported s u _ fun x => by rw [lowIs], fun d up on => ?_, fun d off => ?_⟩
    · rw [desk_enterBroken_on (by simpa using up) ((onSame d).mpr on)]
      simp
    · rw [desk_enterBroken_off (by rw [onSame d]; simpa using off)]
      simp
  · rw [breakEnd_of_break inBreak, highEq]
    by_cases broken : (s.trunk u).bringUp.state = .broken
    · rw [if_pos broken, enterSearch_of_not_up (by simp [broken]), report_onTrunk]
      refine congrArg (State.report · _) ((onTrunk_onTrunk s u _ _).trans (onTrunk_congr _ ?_))
      simp [broken, highIs]
    · rw [if_neg broken]
      refine congrArg (State.report · _) (onTrunk_congr _ ?_)
      simp [broken]

end Sys2Proof.Machine
end

section
/-!
PROOFS. The frame tracker (R162 to R168): the role of each symbol, its check for a code error, and what it does in its role.
-/

namespace Sys2Proof.Machine

open Sys2Proof.Claims

/-! ### Where the next frame may start (R162) -/

theorem bothSpacings_eq_true_iff (r : Receiver) : r.bothSpacings = true ↔ BothSpacings r := by
  unfold Receiver.bothSpacings BothSpacings
  simp

theorem mem_expected_iff (r : Receiver) (f : FrameRef) (n o : Nat) :
    o ∈ r.expected f n ↔ MayStart n (BothSpacings r) f.kind o := by
  unfold Receiver.expected MayStart
  simp only [← bothSpacings_eq_true_iff]
  cases f.kind with
  | bringUp => simp
  | pending => simp
  | data =>
    dsimp only
    by_cases both : r.bothSpacings = true
    · simp only [both, true_and]
      split
      · simp only [List.mem_cons, List.not_mem_nil, or_false]
        omega
      · simp only [List.mem_cons, List.not_mem_nil, or_false]
        omega
    · simp [both]

/-- The last position at which the next frame may start. -/
theorem getLast?_expected_iff (r : Receiver) (f : FrameRef) (n o : Nat) :
    (r.expected f n).getLast? = some o ↔
      MayStart n (BothSpacings r) f.kind o ∧ ∀ x, MayStart n (BothSpacings r) f.kind x → x ≤ o := by
  simp only [← mem_expected_iff]
  unfold Receiver.expected
  cases f.kind with
  | bringUp =>
    simp only [List.getLast?_singleton, Option.some_inj, List.mem_singleton, forall_eq]
    omega
  | pending => simp
  | data =>
    dsimp only
    split
    · simp only [List.getLast?_cons_cons, List.getLast?_singleton, Option.some_inj, List.mem_cons, List.not_mem_nil,
        or_false, forall_eq_or_imp, forall_eq]
      omega
    · simp only [List.getLast?_singleton, Option.some_inj, List.mem_singleton, forall_eq]
      omega

/-! ### Roles -/

section

variable {r : Receiver} {f : FrameRef} {n o : Nat} {sym : Pattern}

theorem roleAt_pending (pending : f.kind = .pending) : r.roleAt f n o sym = .settle := if_pos pending

theorem kind_ne_pending_of_mayStart (start : MayStart n (BothSpacings r) f.kind o) : f.kind ≠ .pending := by
  intro pending
  rw [pending] at start
  exact start

theorem roleAt_start (start : MayStart n (BothSpacings r) f.kind o) (frame : sym = frameSymbol) :
    r.roleAt f n o sym = .frameStart := by
  unfold Receiver.roleAt
  rw [if_neg (kind_ne_pending_of_mayStart start)]
  refine if_pos ?_
  rw [Bool.and_eq_true, List.contains_iff_mem, mem_expected_iff]
  exact ⟨start, decide_eq_true frame⟩

/-- A symbol that is no FRAME at a frame position is read by the checks that follow. -/
theorem roleAt_noStart (settled : f.kind ≠ .pending)
    (noStart : ¬ (MayStart n (BothSpacings r) f.kind o ∧ sym = frameSymbol)) :
    r.roleAt f n o sym =
      if (r.expected f n).getLast? = some o then .missing
      else if f.kind = .data ∧ f.slotsRead ∧ r.alignment = .data ∧ 1 ≤ o ∧ o ≤ n then .slot o
      else if f.kind = .bringUp ∧ f.accepted ∧ r.alignment = .framed ∧ 2 ≤ o ∧ o ≤ 5 then .word
      else .other := by
  unfold Receiver.roleAt
  rw [if_neg settled]
  refine if_neg ?_
  rw [Bool.and_eq_true, List.contains_iff_mem, mem_expected_iff, decide_eq_true_iff]
  exact noStart

theorem roleAt_missing (start : MayStart n (BothSpacings r) f.kind o)
    (last : ∀ x, MayStart n (BothSpacings r) f.kind x → x ≤ o) (noFrame : sym ≠ frameSymbol) :
    r.roleAt f n o sym = .missing := by
  rw [roleAt_noStart (kind_ne_pending_of_mayStart start) fun ⟨_, frame⟩ => noFrame frame]
  exact if_pos ((getLast?_expected_iff r f n o).mpr ⟨start, last⟩)

theorem roleAt_slot (data : f.kind = .data) (read : f.slotsRead = true) (alignment : r.alignment = .data) (first : 1 ≤ o)
    (last : o ≤ n) (noStart : ¬ (MayStart n (BothSpacings r) f.kind o ∧ sym = frameSymbol)) :
    r.roleAt f n o sym = .slot o := by
  have notLast : ¬ (r.expected f n).getLast? = some o := by
    rw [getLast?_expected_iff]
    rintro ⟨-, last'⟩
    have whole : MayStart n (BothSpacings r) f.kind (n + 1) := by
      rw [data]
      exact Or.inl rfl
    have := last' _ whole
    omega
  rw [roleAt_noStart (by simp [data]) noStart, if_neg notLast]
  exact if_pos ⟨data, read, alignment, first, last⟩

theorem roleAt_word (bringUp : f.kind = .bringUp) (accepted : f.accepted = true) (alignment : r.alignment = .framed)
    (first : 2 ≤ o) (last : o ≤ 5) : r.roleAt f n o sym = .word := by
  have notStart : ¬ MayStart n (BothSpacings r) f.kind o := by
    rw [bringUp]
    unfold MayStart
    omega
  have notLast : ¬ (r.expected f n).getLast? = some o := by
    rw [getLast?_expected_iff]
    exact fun ⟨start, _⟩ => notStart start
  rw [roleAt_noStart (by simp [bringUp]) fun ⟨start, _⟩ => notStart start, if_neg notLast,
    if_neg fun ⟨data, _⟩ => by rw [bringUp] at data; cases data]
  exact if_pos ⟨bringUp, accepted, alignment, first, last⟩

theorem roleAt_plain (plainly : ReadPlainly r f n o sym) : r.roleAt f n o sym = .other := by
  obtain ⟨settled, start, notSlot, notWord⟩ := plainly
  have notLast : ¬ (r.expected f n).getLast? = some o := by
    rw [getLast?_expected_iff]
    rintro ⟨here, last⟩
    obtain ⟨-, x, later, beyond⟩ := start here
    have := last x later
    omega
  rw [roleAt_noStart settled fun ⟨here, frame⟩ => (start here).1 frame, if_neg notLast,
    if_neg fun ⟨data, read, alignment, _, last⟩ => notSlot ⟨alignment, data, read, last⟩]
  exact if_neg fun ⟨bringUp, accepted, alignment, first, last⟩ => notWord ⟨alignment, bringUp, accepted, first, last⟩

end

/-! ### The check for a code error (R166) -/

theorem isCodeError_eq_false {sym : Pattern} (valid : markCount sym = 4) : isCodeError sym = false :=
  decide_eq_false (not_not.mpr valid)

theorem checkSymbol_valid (s : State) (u : TrunkId) {sym : Pattern} (valid : markCount sym = 4) :
    s.checkSymbol u sym = s := by
  unfold State.checkSymbol
  dsimp only
  rw [isCodeError_eq_false valid, if_neg Bool.false_ne_true]

/-- The receiver of a trunk after a code error in a slot: counted, and captured when it is the first. -/
def withError (slot : Nat) (sym : Pattern) (r : Receiver) : Receiver :=
  { r with
    errorCount := if r.errorCount < 255 then r.errorCount + 1 else r.errorCount
    capture := some (r.capture.getD ⟨slot, sym⟩) }

/-- The CODE_ERROR record of a trunk. -/
def errorRecord (s : State) (u : TrunkId) (slot : Nat) (sym : Pattern) : Record :=
  plain s .codeError (byte u.val) [byte slot, byte sym.toNat, byte (s.trunk u).receiver.alignment.code,
    byte (withError slot sym (s.trunk u).receiver).errorCount]

/-- A code error changes the receiver, and the first one is reported; `f` is what the tracker then makes of the receiver. -/
def errorRead (s : State) (u : TrunkId) (slot : Nat) (sym : Pattern) (f : Receiver → Receiver) : State :=
  if (s.trunk u).receiver.capture = none then
    (s.onReceiver u fun r => f (withError slot sym r)).report (errorRecord s u slot sym)
  else s.onReceiver u fun r => f (withError slot sym r)

theorem checkSymbol_error {s : State} {u : TrunkId} {sym : Pattern} {f : FrameRef} (wrong : markCount sym ≠ 4)
    (ref : (s.trunk u).receiver.ref = some f) :
    s.checkSymbol u sym = errorRead s u (slotOfSymbol f (s.slotCount u) (f.offset + 1) sym) sym id := by
  have error : isCodeError sym = true := decide_eq_true wrong
  unfold State.checkSymbol errorRead
  dsimp only
  rw [error, if_pos rfl, ref]
  dsimp only
  cases capture : (s.trunk u).receiver.capture with
  | none =>
    rw [if_pos rfl]
    refine congrArg₂ State.report (onReceiver_congr ?_) rfl
    simp only [id, withError, capture]
    rfl
  | some c =>
    rw [if_neg (by simp)]
    refine onReceiver_congr ?_
    simp only [id, withError, capture, Option.getD_some]
    rw [← capture]
    rfl

theorem errorRead_onReceiver (s : State) (u : TrunkId) (slot : Nat) (sym : Pattern) (f g : Receiver → Receiver) :
    (errorRead s u slot sym f).onReceiver u g = errorRead s u slot sym fun r => g (f r) := by
  unfold errorRead
  split
  · rw [report_onReceiver, onReceiver_onReceiver]
  · exact onReceiver_onReceiver s u _ _

theorem receiver_errorRead (s : State) (u : TrunkId) (slot : Nat) (sym : Pattern) (f : Receiver → Receiver) :
    ((errorRead s u slot sym f).trunk u).receiver = f (withError slot sym (s.trunk u).receiver) := by
  unfold errorRead
  split <;> simp

/-- A code error in the words of the claims, the reference apart. -/
theorem errorRead_eq {s t : State} {u : TrunkId} {slot count : Nat} {sym : Pattern} {g : FrameRef} {code : Byte}
    (countIs : count = if (s.trunk u).receiver.errorCount < 255 then (s.trunk u).receiver.errorCount + 1
      else (s.trunk u).receiver.errorCount)
    (codeIs : byte (s.trunk u).receiver.alignment.code = code)
    (tIs : t = s.onReceiver u fun x =>
      { x with errorCount := count, capture := some (x.capture.getD ⟨slot, sym⟩), ref := some g }) :
    errorRead s u slot sym (fun r => { r with ref := some g }) =
      if (s.trunk u).receiver.capture = none then
        t.report (plain s .codeError (byte u.val) [byte slot, byte sym.toNat, code, byte count])
      else t := by
  have changed : t = s.onReceiver u fun r => { withError slot sym r with ref := some g } := by
    rw [tIs]
    refine onReceiver_congr ?_
    rw [countIs]
    rfl
  unfold errorRead errorRecord
  rw [changed, codeIs, countIs]
  rfl

/-! ### What each role does -/

section

variable {s : State} {u : TrunkId} {f : FrameRef} {sym : Pattern} (ref : (s.trunk u).receiver.ref = some f)
  (reads : (s.trunk u).receiver.alignment = .framed ∨ (s.trunk u).receiver.alignment = .data)
include ref reads

/-- A symbol is read by the step whose role it has. -/
theorem readAs_of_role {role : SymbolRole} {mine : SymbolRole → Bool}
    (at_ : (s.trunk u).receiver.roleAt f (s.slotCount u) (f.offset + 1) sym = role) (own : mine role = true) :
    s.readAs u sym mine = (s.checkSymbol u sym).trackSymbol u f role sym := by
  have found : s.symbolRole u sym = some role := by
    unfold State.symbolRole
    dsimp only
    rcases reads with alignment | alignment <;> rw [alignment, ref, ← at_]
  unfold State.readAs
  rw [found]
  dsimp only
  rw [if_pos own]
  unfold State.readSymbol
  rw [ref]

theorem readAs_valid {role : SymbolRole} {mine : SymbolRole → Bool} (valid : markCount sym = 4)
    (at_ : (s.trunk u).receiver.roleAt f (s.slotCount u) (f.offset + 1) sym = role) (own : mine role = true) :
    s.readAs u sym mine = s.trackSymbol u f role sym := by
  rw [readAs_of_role ref reads at_ own, checkSymbol_valid s u valid]

theorem readAs_error {role : SymbolRole} {mine : SymbolRole → Bool} (wrong : markCount sym ≠ 4)
    (at_ : (s.trunk u).receiver.roleAt f (s.slotCount u) (f.offset + 1) sym = role) (own : mine role = true) :
    s.readAs u sym mine =
      (errorRead s u (slotOfSymbol f (s.slotCount u) (f.offset + 1) sym) sym id).trackSymbol u f role sym := by
  rw [readAs_of_role ref reads at_ own, checkSymbol_error wrong ref]

end

theorem acceptStart_eq (s : State) (u : TrunkId) (f : FrameRef) (kind : f.kind = .bringUp → f.offset + 1 = 6) :
    s.acceptStart u f = s.onReceiver u fun x =>
      { x with
        missCount := 0, switchWindow := windowAfter (s.trunk u).receiver
        ref := some
          { kind := .pending, offset := 0, accepted := true
            slotsRead := decide ((s.trunk u).receiver.alignment = .data)
            afterBringUp := f.accepted && decide (f.kind = .bringUp), values := [], withheld := false } } := by
  have after : (f.accepted && decide (f.kind = .bringUp) && decide (f.offset + 1 = 6)) =
      (f.accepted && decide (f.kind = .bringUp)) := by
    by_cases bringUp : f.kind = .bringUp
    · simp [bringUp, kind bringUp]
    · simp [bringUp]
  unfold State.acceptStart State.settleFrame windowAfter
  rw [onReceiver_onReceiver, after]
  refine onReceiver_congr ?_
  by_cases data : (s.trunk u).receiver.alignment = .data
  · simp [data]
  · simp [data]

theorem settleStart_framed {s : State} {u : TrunkId} (framed : (s.trunk u).receiver.alignment = .framed) (f : FrameRef)
    (sym : Pattern) :
    s.settleStart u f sym = s.onReceiver u fun x =>
      { x with ref := some { f with kind := if sym = frameSymbol then .bringUp else .data, offset := 1 } } := by
  unfold State.settleStart State.setRef
  dsimp only
  rw [framed]
  rfl

section

variable {s : State} {u : TrunkId} (data : (s.trunk u).receiver.alignment = .data) (f : FrameRef)
include data

theorem settleStart_bringUp :
    s.settleStart u f frameSymbol =
      if (s.trunk u).receiver.switchWindow = 0 ∧ f.afterBringUp = true then
        (s.onReceiver u fun x => { x with ref := some { f with kind := .bringUp, offset := 1 } }).loseTrunk u 2
      else s.onReceiver u fun x => { x with ref := some { f with kind := .bringUp, offset := 1 } } := by
  unfold State.settleStart State.setRef
  dsimp only
  rw [data, if_pos rfl, if_pos rfl, if_pos rfl]

theorem settleStart_data {sym : Pattern} (noFrame : sym ≠ frameSymbol) :
    s.settleStart u f sym =
      if f.slotsRead = true ∧ 1 ≤ s.slotCount u then
        (s.onReceiver u fun x => { x with ref := some { f with kind := .data, offset := 1 } }).flowSymbol u 1 sym
      else s.onReceiver u fun x => { x with ref := some { f with kind := .data, offset := 1 } } := by
  unfold State.settleStart State.setRef
  dsimp only
  rw [data, if_pos rfl, if_neg noFrame, if_neg noFrame]
  rfl

end

theorem flowSymbol_of_desk {s : State} {u : TrunkId} {k : Nat} {d : DeskId} (slot : s.slotDesk u k = some d)
    (sym : Pattern) : s.flowSymbol u k sym = s.onDesk d (hears sym) := by
  unfold State.flowSymbol
  rw [slot]
  dsimp only
  unfold hears haltSymbol idleSymbol
  split
  · rfl
  · split
    · rfl
    · exact (onDesk_self s rfl).symm

theorem flowSymbol_spare {s : State} {u : TrunkId} {k : Nat} (slot : s.slotDesk u k = none) (sym : Pattern) :
    s.flowSymbol u k sym = s := by
  unfold State.flowSymbol
  rw [slot]

/-- A code error is neither HALT nor IDLE. -/
theorem flowSymbol_error (s : State) (u : TrunkId) (k : Nat) {sym : Pattern} (wrong : markCount sym ≠ 4) :
    s.flowSymbol u k sym = s := by
  have notHalt : sym ≠ haltSymbol := fun e => wrong (by rw [e]; decide)
  have notIdle : sym ≠ idleSymbol := fun e => wrong (by rw [e]; decide)
  unfold State.flowSymbol
  cases s.slotDesk u k with
  | none => rfl
  | some d =>
    dsimp only
    rw [if_neg notHalt, if_neg notIdle]

/-- The receiver after a missing frame, before what a second one in a row does. -/
def afterMiss (n : Nat) (f : FrameRef) (r : Receiver) : Receiver :=
  { r with missCount := 1, switchWindow := windowAfter r, ref := some (missedRef n f) }

/-- A missing frame, its kind's spacing given: the reference moves on and the frame is settled. -/
theorem settleFrame_miss (s : State) (u : TrunkId) (f : FrameRef) {spacing : Nat}
    (spacingIs : spacing = if f.kind = .bringUp then 6 else s.slotCount u + 1) :
    (s.onReceiver u fun r => { r with
      ref := some { kind := f.kind, offset := (f.offset + 1) % spacing, accepted := false, slotsRead := false,
                    afterBringUp := false, values := [], withheld := false }
      missCount := 1 }).settleFrame u = s.onReceiver u (afterMiss (s.slotCount u) f) := by
  subst spacingIs
  unfold State.settleFrame
  rw [onReceiver_onReceiver]
  refine onReceiver_congr ?_
  unfold afterMiss windowAfter missedRef
  by_cases data : (s.trunk u).receiver.alignment = .data
  · simp [data]
  · simp [data]

theorem missFrame_eq (s : State) (u : TrunkId) {f : FrameRef} (settled : f.kind ≠ .pending) :
    s.missFrame u f =
      if (s.trunk u).receiver.missCount = 0 then s.onReceiver u (afterMiss (s.slotCount u) f)
      else if (s.trunk u).receiver.alignment = .data then
        (s.onReceiver u (afterMiss (s.slotCount u) f)).loseTrunk u 1
      else (s.onReceiver u (afterMiss (s.slotCount u) f)).onReceiver u fun r =>
        { r with alignment := .seeking, ref := none, missCount := 0 } := by
  unfold State.missFrame
  dsimp only
  rw [settleFrame_miss]
  cases kind : f.kind with
  | pending => exact absurd kind settled
  | _ => rfl

/-- The second missing frame in a row, in FRAMED. -/
theorem missFrame_framed {s : State} {u : TrunkId} {f : FrameRef} (settled : f.kind ≠ .pending)
    (again : (s.trunk u).receiver.missCount ≠ 0) (framed : (s.trunk u).receiver.alignment = .framed) :
    s.missFrame u f = s.onReceiver u fun r => { r with alignment := .seeking, missCount := 0, ref := none } := by
  rw [missFrame_eq s u settled, if_neg again, if_neg (by simp [framed]), onReceiver_onReceiver]
  refine onReceiver_congr ?_
  simp [afterMiss, windowAfter, framed]

/-- The second missing frame in a row, in DATA. -/
theorem missFrame_data {s : State} {u : TrunkId} {f : FrameRef} (settled : f.kind ≠ .pending)
    (again : (s.trunk u).receiver.missCount ≠ 0) (data : (s.trunk u).receiver.alignment = .data)
    (up : (s.trunk u).bringUp.state = .up) (whole : (s.trunk u).receiver.inBreak = false) :
    LostFrom s u 1 (windowAfter (s.trunk u).receiver) (s.missFrame u f) := by
  rw [missFrame_eq s u settled, if_neg again, if_pos data]
  exact lostFrom_loseTrunk (f := afterMiss (s.slotCount u) f) 1 up whole rfl

/-- A word symbol of the line code adds its value to the word. -/
theorem addWordSymbol_codePattern (f : FrameRef) (c : FiveUnit) :
    f.addWordSymbol (codePattern c) = { f with values := f.values ++ [c] } := by
  have small : c.toNat < 32 := c.isLt
  unfold FrameRef.addWordSymbol
  rw [patternIndex_codePattern]
  dsimp only
  rw [if_pos small, BitVec.ofNat_toNat, BitVec.setWidth_eq]

theorem addWordSymbol_line (f : FrameRef) {sym : Pattern} (line : sym = 0b1110010 ∨ sym = 0b1110100 ∨ sym = 0b1111000) :
    f.addWordSymbol sym = { f with withheld := true } := by
  rcases line with rfl | rfl | rfl <;> rfl

theorem addWordSymbol_error (f : FrameRef) {sym : Pattern} (wrong : markCount sym ≠ 4) :
    f.addWordSymbol sym = { f with withheld := true } := by
  have unknown : patternIndex sym = none := by
    unfold patternIndex
    rw [List.findIdx?_eq_none_iff]
    intro p mem
    refine decide_eq_false fun same => wrong ?_
    rw [← same]
    exact (mem_patterns_iff p).mp mem
  unfold FrameRef.addWordSymbol
  rw [unknown]

theorem markCount_codePattern (c : FiveUnit) : markCount (codePattern c) = 4 := by
  rw [codePattern_eq_getElem]
  exact (mem_patterns_iff _).mp (List.getElem_mem _)

end Sys2Proof.Machine
end

section
/-!
PROOFS. The symbols a receiver reads, each by the step of its role (R162 to R168).
-/

namespace Sys2Proof.Machine

open Sys2Proof.Claims

section

variable {s : State} {u : TrunkId} {f : FrameRef} {sym : Pattern} (ref : (s.trunk u).receiver.ref = some f)
  (reads : (s.trunk u).receiver.alignment = .framed ∨ (s.trunk u).receiver.alignment = .data)
include ref reads

/-! ### A frame start -/

theorem farFrameStart_accepted
    (start : MayStart (s.slotCount u) (BothSpacings (s.trunk u).receiver) f.kind (f.offset + 1)) :
    exec (.farFrameStart u frameSymbol) s = .next (s.onReceiver u fun x =>
      { x with
        missCount := 0, switchWindow := windowAfter (s.trunk u).receiver
        ref := some
          { kind := .pending, offset := 0, accepted := true
            slotsRead := decide ((s.trunk u).receiver.alignment = .data)
            afterBringUp := f.accepted && decide (f.kind = .bringUp), values := [], withheld := false } }) := by
  refine congrArg Host.Outcome.next ((readAs_valid ref reads (by decide) (roleAt_start start rfl) rfl).trans ?_)
  refine acceptStart_eq s u f fun bringUp => ?_
  rw [bringUp] at start
  exact start

/-! ### The symbol after a FRAME -/

theorem farFrameStart_framed (pending : f.kind = .pending) (framed : (s.trunk u).receiver.alignment = .framed)
    (valid : markCount sym = 4) :
    exec (.farFrameStart u sym) s = .next (s.onReceiver u fun x =>
      { x with ref := some { f with kind := if sym = frameSymbol then .bringUp else .data, offset := 1 } }) :=
  congrArg Host.Outcome.next
    ((readAs_valid ref reads valid (roleAt_pending pending) rfl).trans (settleStart_framed framed f sym))

theorem farFrameStart_bringUp (pending : f.kind = .pending) (data : (s.trunk u).receiver.alignment = .data) :
    exec (.farFrameStart u frameSymbol) s = .next
      (if (s.trunk u).receiver.switchWindow = 0 ∧ f.afterBringUp = true then
        (s.onReceiver u fun x => { x with ref := some { f with kind := .bringUp, offset := 1 } }).loseTrunk u 2
      else s.onReceiver u fun x => { x with ref := some { f with kind := .bringUp, offset := 1 } }) :=
  congrArg Host.Outcome.next
    ((readAs_valid ref reads (by decide) (roleAt_pending pending) rfl).trans (settleStart_bringUp data f))

omit reads in
theorem isReturnSlot_settle (data : (s.trunk u).receiver.alignment = .data) (read : f.slotsRead = true)
    (noFrame : sym ≠ frameSymbol) : s.isReturnSlot u .settle sym = true := by
  unfold State.isReturnSlot Receiver.readsSlots
  simp [data, ref, read, noFrame]

/-! ### A missing frame -/

theorem missingFrame_valid (start : MayStart (s.slotCount u) (BothSpacings (s.trunk u).receiver) f.kind (f.offset + 1))
    (last : ∀ x, MayStart (s.slotCount u) (BothSpacings (s.trunk u).receiver) f.kind x → x ≤ f.offset + 1)
    (noFrame : sym ≠ frameSymbol) (valid : markCount sym = 4) :
    exec (.missingFrame u sym) s = .next (s.missFrame u f) :=
  congrArg Host.Outcome.next (readAs_valid ref reads valid (roleAt_missing start last noFrame) rfl)

omit ref reads in
/-- The slot of a code error at a frame position is 0. -/
theorem slotOfSymbol_missing {n : Nat} (settled : f.kind ≠ .pending)
    (last : ∀ x, MayStart n (BothSpacings (s.trunk u).receiver) f.kind x → x ≤ f.offset + 1) :
    slotOfSymbol f n (f.offset + 1) sym = 0 := by
  refine if_neg ?_
  rintro ⟨-, kind, -, inside⟩
  rcases kind with data | ⟨pending, -⟩
  · have := last (n + 1) (by rw [data]; exact Or.inl rfl)
    omega
  · exact settled pending

end

theorem sym_ne_frame_of_error {sym : Pattern} (wrong : markCount sym ≠ 4) : sym ≠ frameSymbol := by
  rintro rfl
  exact wrong (by decide)

/-- The step of a code error at a frame position. -/
theorem missingFrame_error {s : State} {u : TrunkId} {f : FrameRef} {sym : Pattern}
    (ref : (s.trunk u).receiver.ref = some f)
    (reads : (s.trunk u).receiver.alignment = .framed ∨ (s.trunk u).receiver.alignment = .data)
    (start : MayStart (s.slotCount u) (BothSpacings (s.trunk u).receiver) f.kind (f.offset + 1))
    (last : ∀ x, MayStart (s.slotCount u) (BothSpacings (s.trunk u).receiver) f.kind x → x ≤ f.offset + 1)
    (wrong : markCount sym ≠ 4) :
    exec (.missingFrame u sym) s = .next ((errorRead s u 0 sym id).missFrame u f) := by
  have slot := slotOfSymbol_missing (sym := sym) (kind_ne_pending_of_mayStart start) last
  have read := readAs_error ref reads wrong (roleAt_missing start last (sym_ne_frame_of_error wrong))
    (mine := SymbolRole.isMissing) rfl
  rw [slot] at read
  exact congrArg Host.Outcome.next read

theorem slotCount_errorRead (s : State) (u : TrunkId) (slot : Nat) (sym : Pattern) (f : Receiver → Receiver) :
    (errorRead s u slot sym f).slotCount u = s.slotCount u := by
  have setup : (errorRead s u slot sym f).setup = s.setup := by
    unfold errorRead
    split <;> simp
  unfold State.slotCount
  rw [setup]

theorem bringUp_errorRead (s : State) (u : TrunkId) (slot : Nat) (sym : Pattern) (f : Receiver → Receiver) :
    ((errorRead s u slot sym f).trunk u).bringUp = (s.trunk u).bringUp := by
  unfold errorRead
  split <;> simp

/-- A code error in the words of the claims, before the tracker reads the symbol. -/
theorem errorRead_id_eq {s v w : State} {u : TrunkId} {count : Nat} {sym : Pattern}
    (reads : (s.trunk u).receiver.alignment = .framed ∨ (s.trunk u).receiver.alignment = .data)
    (countIs : count = if (s.trunk u).receiver.errorCount < 255 then (s.trunk u).receiver.errorCount + 1
      else (s.trunk u).receiver.errorCount)
    (vIs : v = s.onReceiver u fun x =>
      { x with errorCount := count, capture := some (x.capture.getD ⟨0, sym⟩) })
    (wIs : w = if (s.trunk u).receiver.capture = none then
      v.report (plain s .codeError (byte u.val)
        [0, byte sym.toNat, if (s.trunk u).receiver.alignment = .framed then 4 else 5, byte count]) else v) :
    errorRead s u 0 sym id = w := by
  have changed : v = s.onReceiver u fun r => id (withError 0 sym r) := by
    rw [vIs]
    refine onReceiver_congr ?_
    rw [countIs]
    rfl
  have code : byte (s.trunk u).receiver.alignment.code = if (s.trunk u).receiver.alignment = .framed then 4 else 5 := by
    rcases reads with alignment | alignment <;> rw [alignment] <;> rfl
  unfold errorRead errorRecord
  rw [wIs, changed, code, countIs]
  rfl

/-! ### The tracker after a code error -/

/-- The tracker only moves the reference on: so it does after a code error too. -/
theorem trackSymbol_error {s : State} {u : TrunkId} {slot : Nat} {sym : Pattern} {f g : FrameRef} {role : SymbolRole}
    (track : (errorRead s u slot sym id).trackSymbol u f role sym =
      (errorRead s u slot sym id).onReceiver u fun r => { r with ref := some g }) :
    (errorRead s u slot sym id).trackSymbol u f role sym = errorRead s u slot sym fun r => { r with ref := some g } :=
  track.trans (errorRead_onReceiver s u slot sym id _)

theorem trackSymbol_settle_error {s : State} {u : TrunkId} {sym : Pattern} (f : FrameRef) (wrong : markCount sym ≠ 4)
    (reads : (s.trunk u).receiver.alignment = .framed ∨ (s.trunk u).receiver.alignment = .data) :
    s.trackSymbol u f .settle sym = s.onReceiver u fun r => { r with ref := some { f with kind := .data, offset := 1 } } := by
  have noFrame := sym_ne_frame_of_error wrong
  change s.settleStart u f sym = _
  rcases reads with framed | data
  · rw [settleStart_framed framed, if_neg noFrame]
  · rw [settleStart_data data f noFrame]
    split
    · exact flowSymbol_error _ u 1 wrong
    · rfl

theorem trackSymbol_slot_error (s : State) (u : TrunkId) {sym : Pattern} (f : FrameRef) (k : Nat)
    (wrong : markCount sym ≠ 4) :
    s.trackSymbol u f (.slot k) sym = s.onReceiver u fun r => { r with ref := some { f with offset := f.offset + 1 } } :=
  flowSymbol_error _ u k wrong

theorem trackSymbol_word_error (s : State) (u : TrunkId) {sym : Pattern} (f : FrameRef) (wrong : markCount sym ≠ 4) :
    s.trackSymbol u f .word sym =
      s.onReceiver u fun r => { r with ref := some { f with offset := f.offset + 1, withheld := true } } := by
  change s.setRef u (({ f with offset := f.offset + 1 } : FrameRef).addWordSymbol sym) = _
  rw [addWordSymbol_error _ wrong]
  rfl

/-! ### The slot recorded for a code error -/

section

variable {f : FrameRef} {n : Nat} {sym : Pattern}

theorem slotOfSymbol_word (bringUp : f.kind = .bringUp) : slotOfSymbol f n (f.offset + 1) sym = 0 := by
  refine if_neg ?_
  rintro ⟨-, kind, -⟩
  rw [bringUp] at kind
  simp at kind

theorem slotOfSymbol_slot (data : f.kind = .data) (accepted : f.accepted = true) (inside : f.offset + 1 ≤ n) :
    slotOfSymbol f n (f.offset + 1) sym = f.offset + 1 :=
  if_pos ⟨accepted, Or.inl data, Nat.le_add_left 1 _, inside⟩

theorem slotOfSymbol_pending (pending : f.kind = .pending) (accepted : f.accepted = true) (wrong : markCount sym ≠ 4) :
    slotOfSymbol f n (f.offset + 1) sym = if f.offset + 1 ≤ n then f.offset + 1 else 0 := by
  have noFrame := sym_ne_frame_of_error wrong
  unfold slotOfSymbol
  simp [pending, accepted, noFrame]

theorem slotOfSymbol_settled (settled : f.kind ≠ .pending) :
    slotOfSymbol f n (f.offset + 1) sym = if f.accepted = true ∧ f.kind = .data ∧ f.offset + 1 ≤ n then f.offset + 1 else 0 := by
  unfold slotOfSymbol
  simp [settled]

end

/-! ### All roles together -/

/-- Settles O54: each clause by the role of its symbol. -/
theorem symbolReadByItsRole : Obligations.SymbolReadByItsRole := by
  rintro s u f sym r n o rfl ref rfl rfl reads
  have frameIs : (0b1110010 : Pattern) = frameSymbol := rfl
  have code : byte (s.trunk u).receiver.alignment.code = if (s.trunk u).receiver.alignment = .framed then 4 else 5 := by
    rcases reads with alignment | alignment <;> rw [alignment] <;> rfl
  rw [frameIs]
  refine ⟨farFrameStart_accepted ref reads, fun pending framed legal => ?framed, fun pending data => ?data,
    fun start last noFrame valid => ?missing, fun v w count start last wrong countIs vIs wIs => ?missingError,
    fun data kind read inside valid noStart => ?slot, fun c framed kind accepted first last => ?word,
    fun framed kind accepted first last line => ?line, fun plainly => ?plain,
    fun t slot count g wrong accepted countIs tIs => ?error⟩
  case framed =>
    refine farFrameStart_framed ref reads pending framed (legal.elim (fun frame => ?_) id)
    rw [frame]
    decide
  case data =>
    refine ⟨fun calm => ?_, fun closed after up whole => ?_, fun unread noFrame valid => ?_,
      fun d read noFrame valid slots slot => ?_, fun read noFrame valid slot => ?_⟩
    · rw [farFrameStart_bringUp ref reads pending data, if_neg ?_]
      rintro ⟨closed, after⟩
      rcases calm with window | unset
      · omega
      · exact Bool.false_ne_true (unset.symm.trans after)
    · rw [farFrameStart_bringUp ref reads pending data, if_pos ⟨closed, after⟩]
      refine ⟨_, rfl, ?_⟩
      have lost := lostFrom_loseTrunk (s := s) (u := u)
        (f := fun x => { x with ref := some { f with kind := .bringUp, offset := 1 } }) 2 up whole rfl
      rw [closed] at lost
      exact lost
    · refine congrArg Host.Outcome.next ((readAs_valid ref reads valid (roleAt_pending pending) rfl).trans ?_)
      exact (settleStart_data data f noFrame).trans (if_neg (by simp [unread]))
    · refine congrArg Host.Outcome.next ((readAs_valid ref reads valid (roleAt_pending pending)
        (isReturnSlot_settle ref data read noFrame)).trans ?_)
      refine (settleStart_data data f noFrame).trans ((if_pos ⟨read, slots⟩).trans ?_)
      exact flowSymbol_of_desk (s := s.onReceiver u _) slot sym
    · refine congrArg Host.Outcome.next ((readAs_valid ref reads valid (roleAt_pending pending)
        (isReturnSlot_settle ref data read noFrame)).trans ?_)
      refine (settleStart_data data f noFrame).trans ?_
      split
      · exact flowSymbol_spare (s := s.onReceiver u _) slot sym
      · rfl
  case missing =>
    have settled := kind_ne_pending_of_mayStart start
    rw [missingFrame_valid ref reads start last noFrame valid]
    refine ⟨fun first => congrArg Host.Outcome.next ?_, fun again framed => congrArg Host.Outcome.next ?_,
      fun again data up whole => ⟨_, rfl, missFrame_data settled again data up whole⟩⟩
    · rw [missFrame_eq s u settled, if_pos first]
      exact onReceiver_congr rfl
    · exact missFrame_framed settled again framed
  case missingError =>
    have settled := kind_ne_pending_of_mayStart start
    have read := missingFrame_error ref reads start last wrong
    have receiver := receiver_errorRead s u 0 sym id
    have bringUp := bringUp_errorRead s u 0 sym id
    have slots := slotCount_errorRead s u 0 sym id
    rw [errorRead_id_eq reads countIs vIs wIs] at read receiver bringUp slots
    have missCount : (w.trunk u).receiver.missCount = (s.trunk u).receiver.missCount := by rw [receiver]; rfl
    have alignment : (w.trunk u).receiver.alignment = (s.trunk u).receiver.alignment := by rw [receiver]; rfl
    have inBreak : (w.trunk u).receiver.inBreak = (s.trunk u).receiver.inBreak := by rw [receiver]; rfl
    have window : windowAfter (w.trunk u).receiver = windowAfter (s.trunk u).receiver := by rw [receiver]; rfl
    rw [read]
    refine ⟨fun first => congrArg Host.Outcome.next ?_, fun again framed => congrArg Host.Outcome.next ?_,
      fun again data up whole => ⟨_, rfl, ?_⟩⟩
    · rw [missFrame_eq w u settled, if_pos (missCount.trans first), slots, ← window]
      exact onReceiver_congr rfl
    · exact missFrame_framed settled (missCount ▸ again) (alignment.trans framed)
    · rw [← window]
      exact missFrame_data settled (missCount ▸ again) (alignment.trans data) (by rw [bringUp]; exact up)
        (inBreak.trans whole)
  case slot =>
    have notStart : ¬ (MayStart (s.slotCount u) (BothSpacings (s.trunk u).receiver) f.kind (f.offset + 1) ∧
        sym = frameSymbol) := by
      rintro ⟨start, frame⟩
      rw [kind] at start
      rcases start with whole | ⟨both, six⟩
      · omega
      · rcases noStart with noFrame | notSix | closed
        · exact noFrame frame
        · exact notSix six
        · rcases both with framed | ⟨-, opened⟩
          · rw [data] at framed
            cases framed
          · omega
    have role := roleAt_slot kind read data (Nat.le_add_left 1 _) inside notStart
    have taken := readAs_valid (mine := fun role => s.isReturnSlot u role sym) ref reads valid role rfl
    refine ⟨fun d slot => congrArg Host.Outcome.next (taken.trans ?_), fun slot => congrArg Host.Outcome.next (taken.trans ?_)⟩
    · exact flowSymbol_of_desk (s := s.onReceiver u _) slot sym
    · exact flowSymbol_spare (s := s.onReceiver u _) slot sym
  case word =>
    have role : (s.trunk u).receiver.roleAt f (s.slotCount u) (f.offset + 1) (codePattern c) = .word :=
      roleAt_word kind accepted framed first last
    refine congrArg Host.Outcome.next ((readAs_valid ref reads (markCount_codePattern c) role rfl).trans ?_)
    exact congrArg (s.setRef u) (addWordSymbol_codePattern _ c)
  case line =>
    have role : (s.trunk u).receiver.roleAt f (s.slotCount u) (f.offset + 1) sym = .word :=
      roleAt_word kind accepted framed first last
    have valid : markCount sym = 4 := by
      rcases line with rfl | rfl | rfl <;> decide
    refine congrArg Host.Outcome.next ((readAs_valid ref reads valid role rfl).trans ?_)
    exact congrArg (s.setRef u) (addWordSymbol_line _ line)
  case plain =>
    have role := roleAt_plain plainly
    refine ⟨fun valid => congrArg Host.Outcome.next (readAs_valid ref reads valid role rfl),
      fun t slot count wrong slotIs countIs tIs => congrArg Host.Outcome.next ?_⟩
    rw [← slotOfSymbol_settled (sym := sym) plainly.1] at slotIs
    subst slotIs
    refine (readAs_error ref reads wrong role rfl).trans ((trackSymbol_error (g := { f with offset := f.offset + 1 }) rfl).trans ?_)
    exact errorRead_eq countIs code tIs
  case error =>
    refine ⟨fun framed kind first last slotIs gIs => congrArg Host.Outcome.next ?_,
      fun data kind read inside slotIs gIs => congrArg Host.Outcome.next ?_, fun pending slotIs gIs => ?_⟩
    · have role : (s.trunk u).receiver.roleAt f (s.slotCount u) (f.offset + 1) sym = .word :=
        roleAt_word kind accepted framed first last
      have taken := readAs_error (mine := SymbolRole.isPlain) ref reads wrong role rfl
      rw [slotOfSymbol_word kind] at taken
      subst slotIs gIs
      refine taken.trans ((trackSymbol_error (trackSymbol_word_error _ u f wrong)).trans ?_)
      exact errorRead_eq countIs (by rw [framed]; rfl) tIs
    · have role : (s.trunk u).receiver.roleAt f (s.slotCount u) (f.offset + 1) sym = .slot (f.offset + 1) :=
        roleAt_slot kind read data (Nat.le_add_left 1 _) inside fun ⟨_, frame⟩ => sym_ne_frame_of_error wrong frame
      have taken := readAs_error (mine := fun role => s.isReturnSlot u role sym) ref reads wrong role rfl
      rw [slotOfSymbol_slot kind accepted inside] at taken
      subst slotIs gIs
      refine taken.trans ((trackSymbol_error (trackSymbol_slot_error _ u f _ wrong)).trans ?_)
      exact errorRead_eq countIs (by rw [data]; rfl) tIs
    · rw [← slotOfSymbol_pending (n := s.slotCount u) pending accepted wrong] at slotIs
      subst slotIs gIs
      have role : (s.trunk u).receiver.roleAt f (s.slotCount u) (f.offset + 1) sym = .settle := roleAt_pending pending
      have tracked := trackSymbol_error (trackSymbol_settle_error
        (s := errorRead s u (slotOfSymbol f (s.slotCount u) (f.offset + 1) sym) sym id) f wrong
        (by rw [receiver_errorRead]; exact reads))
      refine ⟨fun framed => congrArg Host.Outcome.next ?_, fun data unread => congrArg Host.Outcome.next ?_,
        fun data read => congrArg Host.Outcome.next ?_⟩
      · refine (readAs_error ref reads wrong role rfl).trans (tracked.trans ?_)
        exact errorRead_eq countIs (by rw [framed]; rfl) tIs
      · refine (readAs_error ref reads wrong role rfl).trans (tracked.trans ?_)
        exact errorRead_eq countIs (by rw [data]; rfl) tIs
      · refine (readAs_error ref reads wrong role
          (isReturnSlot_settle ref data read (sym_ne_frame_of_error wrong))).trans (tracked.trans ?_)
        exact errorRead_eq countIs (by rw [data]; rfl) tIs

end Sys2Proof.Machine
end

section
/-!
PROOFS. The bring-up words (R172, R173) and what each state of the controller makes of them (R176 to R180).
-/

namespace Sys2Proof.Machine

open Sys2Proof.Claims

/-! ### A word counted (R173) -/

theorem countWord_eq {before : Option Received} {w : BringUpWord} {n : Nat}
    (again : ∀ x, before = some x → x.word = w → n = min 3 (x.repeats + 1))
    (first : (∀ x, before = some x → x.word ≠ w) → n = 1) : countWord before w = { word := w, repeats := n } := by
  unfold countWord
  cases before with
  | none => rw [first nofun]
  | some x =>
    dsimp only
    by_cases same : x.word = w
    · rw [if_pos same, again x rfl same]
    · rw [if_neg same, first]
      rintro y ⟨rfl⟩
      exact same

theorem becameThree_eq_true_iff (before : Option Received) (w : BringUpWord) :
    becameThree before w = true ↔ before = some { word := w, repeats := 2 } := by
  unfold becameThree
  cases before with
  | none => simp
  | some x =>
    obtain ⟨word, repeats⟩ := x
    simp

/-- What a state of the controller makes of a counted word: `t` is the state with the count (R173). -/
def examinedIn (st : TrunkState) (s t : State) (u : TrunkId) (w : BringUpWord) (n : Nat) (repeated : Bool) : State :=
  match st with
  | .search => t.examineSearch u w n repeated
  | .confirm => t.examineConfirm u w n repeated
  | .map => t.examineMap u w n
  | .settle => t.examineSettle u w
  | .down => s
  | .up => s
  | .broken => s

/-- A word handed over to a controller in bring-up. -/
theorem wordReceived_eq {s : State} {u : TrunkId} {w : BringUpWord} {n : Nat}
    (framed : (s.trunk u).receiver.alignment = .framed) (known : wordKind w ≠ .ignored)
    (counted : countWord (s.trunk u).bringUp.received w = { word := w, repeats := n }) :
    s.wordReceived u w =
      examinedIn (s.trunk u).bringUp.state s
        (s.onBringUp u fun b => { b with received := some { word := w, repeats := n } }) u w n
        (becameThree (s.trunk u).bringUp.received w) := by
  unfold State.wordReceived State.receiveWord examinedIn
  dsimp only
  rw [if_pos framed, if_neg known, counted] <;> rfl

/-! ### SEARCH entered again -/

/-- What SEARCH keeps of a controller is unchanged by the count of a word. -/
theorem searching_onBringUp (s : State) (u : TrunkId) (r : Option Received) :
    searching (s.onBringUp u fun b => { b with received := r }) u = searching s u :=
  onTrunk_onTrunk s u _ _

theorem enterSearch_eq_searching {s : State} {u : TrunkId} (notUp : (s.trunk u).bringUp.state ≠ .up)
    (whole : (s.trunk u).receiver.inBreak = false) : s.enterSearch u = searching s u := by
  rw [enterSearch_of_not_up notUp]
  refine onTrunk_congr _ ?_
  simp only [whole, Bool.false_eq_true, if_false]

theorem reportMismatch_eq {s t : State} (u : TrunkId) (w : BringUpWord) (setup : t.setup = s.setup)
    (clock : t.clock = s.clock) :
    t.reportMismatch u w = t.report (plain s .trunkMismatch (byte u.val)
      [byte (w.toNat / 2 ^ 12 % 16), byte (w.toNat / 2 ^ 10 % 4), byte (w.toNat / 2 ^ 16 % 2),
       byte (w.toNat / 2 ^ 5 % 32), byte (s.slotCount u), byte (s.rateClass u),
       if s.ownMore u then 1 else 0]) := by
  have more : byteOf (bitOf (BringUpWord.moreOf w)) = byte (w.toNat / 2 ^ 16 % 2) := by
    unfold BringUpWord.moreOf
    rw [getLsbD_of_toNat_div]
    obtain e | e : w.toNat / 2 ^ 16 % 2 = 0 ∨ w.toNat / 2 ^ 16 % 2 = 1 := by omega
    · rw [e]
      rfl
    · rw [e]
      rfl
  have own : byteOf (bitOf (t.ownMore u)) = if s.ownMore u then 1 else 0 := by
    have same : t.ownMore u = s.ownMore u := by
      unfold State.ownMore State.slotNumber
      rw [setup]
    rw [same]
    cases s.ownMore u <;> rfl
  unfold State.reportMismatch
  rw [more, own, reportPlain_eq, plain_congr clock]
  unfold State.slotCount State.rateClass
  rw [setup]
  rfl

/-! ### The rules of the states -/

section

variable {t : State} {u : TrunkId} {w : BringUpWord} {n : Nat} {repeated : Bool}

theorem examineSearch_stands (no : wordKind w ≠ .base ∨ n ≠ 3) : t.examineSearch u w n repeated = t := by
  unfold State.examineSearch
  split
  case h_1 base => exact if_neg (no.resolve_left (· base))
  all_goals rfl

theorem examineSearch_base (base : wordKind w = .base) :
    t.examineSearch u w 3 repeated =
      if t.compatible u w then t.enterConfirm u w else if repeated then t.reportMismatch u w else t := by
  unfold State.examineSearch
  rw [base]
  rfl

theorem examineConfirm_base (base : wordKind w = .base) :
    t.examineConfirm u w n repeated =
      if n = 3 then
        if t.compatible u w then
          if BringUpWord.ackOf w then (if t.ownMore u then t.enterMap u else t.enterSettle u) else t
        else (if repeated then t.reportMismatch u w else t).enterSearch u
      else t := by
  unfold State.examineConfirm
  rw [base]

theorem examineConfirm_page (page : wordKind w = .page) :
    t.examineConfirm u w n repeated = if t.ownMore u then t.enterMap u else t := by
  unfold State.examineConfirm
  rw [page]

theorem examineConfirm_null (null : wordKind w = .null) :
    t.examineConfirm u w n repeated = if BringUpWord.ackOf w ∧ t.ownMore u = false then t.enterSettle u else t := by
  unfold State.examineConfirm
  rw [null]

theorem examineSettle_stands (no : wordKind w ≠ .base ∨ BringUpWord.ackOf w = true) : t.examineSettle u w = t := by
  unfold State.examineSettle
  split
  case h_1 base => exact if_pos (no.resolve_left (· base))
  all_goals rfl

theorem examineSettle_base (base : wordKind w = .base) :
    t.examineSettle u w = if BringUpWord.ackOf w then t else t.enterSearch u := by
  unfold State.examineSettle
  rw [base]

variable {k : Nat} {seen : Bool} (page : (t.trunk u).bringUp.page = some ⟨k, seen⟩)
include page

theorem examineMap_page (kind : wordKind w = .page) : t.examineMap u w n = t.examinePage u ⟨k, seen⟩ w n := by
  unfold State.examineMap
  rw [page, kind]

theorem examineMap_base (kind : wordKind w = .base) :
    t.examineMap u w n = if BringUpWord.ackOf w then t else t.enterSearch u := by
  unfold State.examineMap
  rw [page, kind]

theorem examineMap_null (kind : wordKind w = .null) :
    t.examineMap u w n = if BringUpWord.ackOf w ∧ k = t.slotCount u ∧ seen then t.enterSettle u else t := by
  unfold State.examineMap
  rw [page, kind]

end

/-! ### A PAGE word in MAP (R178, R179) -/

section

variable {t : State} {u : TrunkId} {w : BringUpWord} {n k : Nat} {seen : Bool}

theorem examinePage_out (out : BringUpWord.slotOf w = 0 ∨ k + 1 < BringUpWord.slotOf w ∨
    t.slotCount u < BringUpWord.slotOf w) : t.examinePage u ⟨k, seen⟩ w n = t.mapMismatch u k w 2 := if_pos out

/-- A slot of the trunk at or before the next one is read by its place to the page. -/
theorem examinePage_in (first : 1 ≤ BringUpWord.slotOf w) (near : BringUpWord.slotOf w ≤ k + 1)
    (last : BringUpWord.slotOf w ≤ t.slotCount u) :
    t.examinePage u ⟨k, seen⟩ w n =
      if BringUpWord.slotOf w < k then t
      else if BringUpWord.slotOf w = k then
        if seen then (if BringUpWord.ackOf w then t.stepPage u k else t)
        else if n = 3 then
          if BringUpWord.deskOf w ≠ t.slotNumber u k then t.mapMismatch u k w 1
          else if BringUpWord.ackOf w then t.stepPage u k
          else t.onBringUp u fun b => { b with page := some { index := k, seen := true } }
        else t
      else if seen then t.stepPage u k
      else t.mapMismatch u k w 2 :=
  if_neg (by dsimp only; omega)

end

/-- Settles O55: the word is counted, and examined by the rule of its state. -/
theorem bringUpWordsCountedAndExamined : Obligations.BringUpWordsCountedAndExamined := by
  rintro s u w n st t settle map wrong rfl
  refine ⟨fun off => congrArg Host.Outcome.next ?_, fun framed known again first tIs settleIs mapIs wrongIs => ?_⟩
  · unfold State.wordReceived State.receiveWord
    rcases off with unframed | down | up | broken | ignored
    · exact if_neg unframed
    · simp only [down, ite_self]
    · simp only [up, ite_self]
    · simp only [broken, ite_self]
    · rw [if_pos ignored, ite_self]
  · have received := wordReceived_eq framed known (countWord_eq again first)
    rw [← tIs] at received
    have setup : t.setup = s.setup := by rw [tIs]; rfl
    have clock : t.clock = s.clock := by rw [tIs]; rfl
    have settleEq : t.enterSettle u = settle := settleIs.symm
    have mapEq : t.enterMap u = map := mapIs.symm
    have compatible : t.compatible u w = s.compatible u w := by rw [tIs]; rfl
    have more : t.ownMore u = s.ownMore u := by rw [tIs]; rfl
    have slots : t.slotCount u = s.slotCount u := by rw [tIs]; rfl
    have number (k : Nat) : t.slotNumber u k = s.slotNumber u k := by rw [tIs]; rfl
    have state : (t.trunk u).bringUp.state = (s.trunk u).bringUp.state := by rw [tIs]; simp
    have pageEq : (t.trunk u).bringUp.page = (s.trunk u).bringUp.page := by rw [tIs]; simp
    have inBreak : (t.trunk u).receiver.inBreak = (s.trunk u).receiver.inBreak := by rw [tIs]; simp
    have noAck' (no : w.getLsbD 17 = false) : ¬ BringUpWord.ackOf w = true := Bool.eq_false_iff.mp no
    have again' : searching t u = searching s u := by rw [tIs]; exact searching_onBringUp s u _
    have wrongEq : (if becameThree (s.trunk u).bringUp.received w then t.reportMismatch u w else t) = wrong t := by
      simp only [wrongIs, becameThree_eq_true_iff, reportMismatch_eq u w setup clock]
    refine ⟨fun st no => ?_, fun st base three fits => ?_, fun st base three off => ?_, fun st base => ?_,
      fun st page => ?_, fun st null => ?_, fun k slot desk seen step mismatch st page whole slotIs deskIs stepIs misIs => ?_,
      fun st no => ?_, fun st base noAck whole => ?_⟩
    all_goals
      rw [st] at received
      dsimp only [examinedIn] at received
    · exact congrArg Host.Outcome.next (received.trans (examineSearch_stands no))
    · subst three
      rw [examineSearch_base base, compatible, fits, if_pos rfl] at received
      exact congrArg Host.Outcome.next received
    · subst three
      rw [examineSearch_base base, compatible, off, if_neg Bool.false_ne_true, wrongEq] at received
      exact congrArg Host.Outcome.next received
    · rw [examineConfirm_base base, compatible, more, mapEq, settleEq, wrongEq] at received
      refine ⟨fun few => congrArg Host.Outcome.next (received.trans (if_neg few)),
        fun three fits ack => congrArg Host.Outcome.next (received.trans ?_),
        fun three fits noAck => congrArg Host.Outcome.next (received.trans ?_),
        fun three off whole => congrArg Host.Outcome.next (received.trans ?_)⟩
      · rw [if_pos three, if_pos fits, if_pos (show BringUpWord.ackOf w = true from ack)]
      · rw [if_pos three, if_pos fits, if_neg (noAck' noAck)]
      · have same : ((wrong t).trunk u) = t.trunk u := by
          rw [wrongIs]
          split
          · exact trunk_report _ _ u
          · rfl
        rw [if_pos three, if_neg (by simp [off])]
        exact enterSearch_eq_searching (by rw [same, state, st]; simp) (by rw [same, inBreak, whole])
    · rw [examineConfirm_page page, more, mapEq] at received
      exact congrArg Host.Outcome.next received
    · rw [examineConfirm_null null, more, settleEq] at received
      exact congrArg Host.Outcome.next received
    · have at_ : (t.trunk u).bringUp.page = some ⟨k, seen⟩ := pageEq.trans page
      have misEq (cause : Nat) : t.mapMismatch u k w cause = mismatch cause := by
        unfold State.mapMismatch
        rw [reportPlain_eq, enterSearch_eq_searching (by simp [state, st]) (by simp [inBreak, whole]), misIs,
          plain_congr clock, number, slotIs, deskIs]
        rfl
      have stepEq : t.stepPage u k = step := by
        unfold State.stepPage
        rw [stepIs, slots, settleEq]
      refine ⟨fun kind => ?_, fun kind => congrArg Host.Outcome.next ?_, fun kind => congrArg Host.Outcome.next ?_⟩
      · have examined := received.trans (examineMap_page at_ kind)
        have slotEq : BringUpWord.slotOf w = slot := slotIs.symm
        have deskEq : BringUpWord.deskOf w = desk := deskIs.symm
        have inside := examinePage_in (t := t) (u := u) (w := w) (n := n) (k := k) (seen := seen)
        rw [slotEq, deskEq, slots, number, stepEq, misEq, misEq] at inside
        refine ⟨fun out => congrArg Host.Outcome.next ?_, fun low below last => congrArg Host.Outcome.next ?_,
          fun low here last => ?_, fun next last => congrArg Host.Outcome.next ?_⟩
        · rw [examined, examinePage_out (by rw [slotEq, slots]; exact out), misEq]
        · rw [examined, inside low (by omega) last, if_pos below]
        · rw [inside low (by omega) last, if_neg (by omega), if_pos here] at examined
          refine ⟨fun isSeen => congrArg Host.Outcome.next (examined.trans ?_),
            fun unseen few => congrArg Host.Outcome.next (examined.trans ?_),
            fun unseen three other => congrArg Host.Outcome.next (examined.trans ?_),
            fun unseen three same => congrArg Host.Outcome.next (examined.trans ?_)⟩
          · rw [if_pos isSeen]
            rfl
          · rw [if_neg (by simp [unseen]), if_neg few]
          · rw [if_neg (by simp [unseen]), if_pos three, if_pos other]
          · rw [if_neg (by simp [unseen]), if_pos three, if_neg (by simp [same])]
            rfl
        · rw [examined, inside (by omega) (by omega) last, if_neg (by omega), if_neg (by omega)]
      · rw [received, examineMap_base at_ kind, enterSearch_eq_searching (by simp [state, st]) (by simp [inBreak, whole]),
          again']
        rfl
      · rw [received, examineMap_null at_ kind, slots, settleEq]
        rfl
    · exact congrArg Host.Outcome.next (received.trans (examineSettle_stands no))
    · rw [examineSettle_base base, if_neg (noAck' noAck),
        enterSearch_eq_searching (by simp [state, st]) (by simp [inBreak, whole]), again'] at received
      exact congrArg Host.Outcome.next received

end Sys2Proof.Machine
end

section
/-!
PROOFS. The continuation of an item (R111 to R117), the codes of a group (R107 to R110), and what a desk takes next (R96,
R115).
-/

namespace Sys2Proof.Machine

open Sys2Proof.Claims

/-! ### How an item goes on (R111 to R117) -/

theorem noticeLeftOut_eq_true_iff (s : State) (k : NoticeKind) : s.noticeLeftOut k = true ↔ LeftOut s k := by
  unfold State.noticeLeftOut LeftOut
  cases k <;> simp

theorem leftOut_congr {s t : State} (setup : t.setup = s.setup) (k : NoticeKind) : LeftOut t k ↔ LeftOut s k := by
  unfold LeftOut State.phrase
  rw [setup]

theorem endsAt_congr {s t : State} (setup : t.setup = s.setup) : ∀ x, endsAt t x ↔ endsAt s x
  | .finish => Iff.rfl
  | .header => Iff.rfl
  | .text _ => Iff.rfl
  | .trailer => Iff.rfl
  | .notice k _ next => and_congr (leftOut_congr setup k) (endsAt_congr setup next)

/-- TEXT begun at an offset, or TRAILER at the text's end. -/
theorem beginText_eq (s : State) (d : DeskId) (c : SendContext) (o : Nat) (openingDone : Bool) :
    s.beginText d c o openingDone = s.onDesk d fun k => { k with context := some (atText s d c o openingDone) } := by
  unfold State.beginText atText
  dsimp only
  split <;> rfl

/-- Where the item goes on, its send context is put in place. -/
theorem beginNext_goesOn {s : State} {d : DeskId} {c y : SendContext} :
    ∀ {x : Continuation}, goesOn s d c x y → s.beginNext d c x = s.onDesk d fun k => { k with context := some y }
  | .finish, on => on.elim
  | .header, on => by
    rw [on]
    rfl
  | .text o, on => by
    rw [on]
    exact beginText_eq s d c o false
  | .trailer, on => by
    rw [on]
    rfl
  | .notice k h next, on => by
    obtain ⟨passed, begun⟩ := on
    unfold State.beginNext
    by_cases out : LeftOut s k
    · rw [if_pos ((noticeLeftOut_eq_true_iff s k).mpr out)]
      exact beginNext_goesOn (passed out)
    · rw [if_neg (mt (noticeLeftOut_eq_true_iff s k).mp out), begun out]
      rfl

/-- Where nothing is left to send, the item ends. -/
theorem beginNext_endsAt {s : State} {d : DeskId} {c : SendContext} :
    ∀ {x : Continuation}, endsAt s x → s.beginNext d c x = s.endItem d c
  | .finish, _ => rfl
  | .header, on => on.elim
  | .text _, on => on.elim
  | .trailer, on => on.elim
  | .notice k h next, on => by
    obtain ⟨out, ends⟩ := on
    unfold State.beginNext
    rw [if_pos ((noticeLeftOut_eq_true_iff s k).mpr out)]
    exact beginNext_endsAt ends

/-- A notice that is not left out is what comes next. -/
theorem goesOn_notice {s : State} (d : DeskId) (c : SendContext) {k : NoticeKind} (h : HandleId) (next : Continuation)
    (sent : ¬ LeftOut s k) : goesOn s d c (.notice k h next)
      { c with segment := .notice k h next, layout := s.noticeLayout k h, openingDone := false } :=
  And.intro (fun out => absurd out sent) fun _ => rfl

/-- A notice that is left out before END ends the item. -/
theorem endsAt_notice {s : State} {k : NoticeKind} (h : HandleId) (out : LeftOut s k) : endsAt s (.notice k h .finish) :=
  And.intro out trivial

/-- A continuation goes on or ends. -/
theorem goesOn_or_endsAt (s : State) (d : DeskId) (c : SendContext) : ∀ x, (∃ y, goesOn s d c x y) ∨ endsAt s x
  | .finish => Or.inr trivial
  | .header => Or.inl ⟨_, rfl⟩
  | .text _ => Or.inl ⟨_, rfl⟩
  | .trailer => Or.inl ⟨_, rfl⟩
  | .notice k h next => by
    by_cases out : LeftOut s k
    · rcases goesOn_or_endsAt s d c next with ⟨y, on⟩ | ends
      · exact Or.inl ⟨y, fun _ => on, fun notOut => absurd out notOut⟩
      · exact Or.inr ⟨out, ends⟩
    · exact Or.inl ⟨_, fun isOut => absurd isOut out, fun _ => rfl⟩

theorem endItem_settle (s : State) (d : DeskId) (c : SendContext) :
    (s.endItem d c).settleStory c.handle = ended s d c.handle := settleStory_eq _ _

theorem settleEnded_of_some {s : State} {d : DeskId} {c : SendContext} (context : (s.desk d).context = some c)
    (h : HandleId) : s.settleEnded d h = s := by
  unfold State.settleEnded
  rw [if_neg (by simp [context])]

theorem settleEnded_of_none {s : State} {d : DeskId} (context : (s.desk d).context = none) (h : HandleId) :
    s.settleEnded d h = s.settleStory h := by
  unfold State.settleEnded
  rw [if_pos (by simp [context])]

theorem beginNext_settled_goesOn {s : State} {d : DeskId} {c y : SendContext} {x : Continuation}
    (on : goesOn s d c x y) (h : HandleId) :
    (s.beginNext d c x).settleEnded d h = s.onDesk d fun k => { k with context := some y } := by
  rw [beginNext_goesOn on]
  exact settleEnded_of_some (c := y) (by simp) h

theorem beginNext_settled_endsAt {s : State} {d : DeskId} {c : SendContext} {x : Continuation} (ends : endsAt s x) :
    (s.beginNext d c x).settleEnded d c.handle = ended s d c.handle := by
  rw [beginNext_endsAt ends, settleEnded_of_none (by simp [State.endItem]), endItem_settle]

/-! ### Taking the next item (R96, R115) -/

/-- Whether a desk may take an item. -/
theorem takeNext_idle {s : State} {d : DeskId}
    (idle : (s.desk d).isOpen = false ∨ (s.desk d).context ≠ none ∨ (s.desk d).held = true ∨
      ((s.desk d).directNext = none ∧ (s.desk d).saved = none ∧ (s.desk d).queue = [])) : s.takeNext d = s := by
  unfold State.takeNext
  dsimp only
  split
  case isTrue ready =>
    simp only [Bool.and_eq_true, Bool.not_eq_true', Option.isNone_iff_eq_none] at ready
    obtain ⟨⟨isOpen, context⟩, held⟩ := ready
    rcases idle with closed | busy | isHeld | ⟨direct, saved, queue⟩
    · rw [closed] at isOpen
      cases isOpen
    · exact absurd context busy
    · rw [isHeld] at held
      cases held
    · rw [direct, saved, queue]
      rfl
  case isFalse => rfl

section

variable {s : State} {d : DeskId} (isOpen : (s.desk d).isOpen = true) (context : (s.desk d).context = none)
  (held : (s.desk d).held = false)
include isOpen context held

theorem takeNext_direct {f : FollowOn} (direct : (s.desk d).directNext = some f) : s.takeNext d = s.takeDirect d f := by
  unfold State.takeNext
  dsimp only
  rw [isOpen, context, held, direct]
  rfl

theorem takeNext_saved {v : SavedContext} (direct : (s.desk d).directNext = none) (saved : (s.desk d).saved = some v) :
    s.takeNext d = s.takeSaved d v := by
  unfold State.takeNext
  dsimp only
  rw [isOpen, context, held, direct, saved]
  rfl

theorem takeNext_head {e : DeskEntry} {more : List DeskEntry} (direct : (s.desk d).directNext = none)
    (saved : (s.desk d).saved = none) (queue : (s.desk d).queue = e :: more) : s.takeNext d = s.takeHead d e := by
  unfold State.takeNext
  dsimp only
  rw [isOpen, context, held, direct, saved, queue]
  rfl

end

theorem setMark_onDesk (s : State) (h : HandleId) (d e : DeskId) (m : Mark) (f : Desk → Desk) :
    (s.setMark h d m).onDesk e f = (s.onDesk e f).setMark h d m := rfl

/-- An item begins with its HEADER, once its mark has changed. -/
theorem beginHeader_marked (s : State) (d : DeskId) (h : HandleId) (f : Desk → Desk) :
    (((s.onDesk d f).setMark h d .active).beginHeader d
      (((s.onDesk d f).setMark h d .active).freshContext d h .story)) =
      (s.onDesk d fun k =>
        { f k with context := some (startOf s d h .story .header (s.headerLayout h)) }).setMark h d .active := by
  have layout : ((s.onDesk d f).setMark h d .active).headerLayout h = s.headerLayout h := by
    have story : ((s.onDesk d f).setMark h d .active).story h =
        { s.story h with marks := modifyAt (s.story h).marks d fun _ => .active } := by
      unfold State.setMark
      simp
    unfold State.headerLayout State.headerWord State.headerReference
    rw [story]
    rfl
  unfold State.beginHeader State.putContext
  rw [show (((s.onDesk d f).setMark h d .active).freshContext d h .story).handle = h from rfl, layout, setMark_onDesk,
    onDesk_onDesk]
  rfl

/-- What a saved context begins with (R115, R120, R123). -/
theorem first_of_uncut {v : SavedContext} (uncut : v.cutNotice = none) :
    v.first = .notice .resume v.handle v.resume.continuation := by
  unfold SavedContext.first
  rw [uncut]

theorem first_of_cut {v : SavedContext} {n : NoticeKind} (cut : v.cutNotice = some n) :
    v.first = .notice n v.handle .finish := by
  unfold SavedContext.first
  rw [cut]

/-- The desk whose saved context becomes the current item: the follow-on of one that has been cut moves up. -/
theorem takeSaved_eq (s : State) (d : DeskId) (v : SavedContext) {u : State}
    (uncut : v.cutNotice = none → u = s.onDesk d fun k => { k with saved := none })
    (cut : ∀ n, v.cutNotice = some n → u = s.onDesk d fun k =>
      { k with saved := none, directNext := k.savedFollowOn, savedFollowOn := none }) :
    s.takeSaved d v = (u.beginNext d (startOf s d v.handle .story .header []) v.first).settleEnded d v.handle := by
  unfold State.takeSaved
  cases e : v.cutNotice with
  | none =>
    rw [uncut e]
    rfl
  | some n =>
    rw [cut n e]
    rfl

theorem takeHead_story (s : State) (d : DeskId) {e : DeskEntry} (kind : e.kind = .story) :
    s.takeHead d e = (s.onDesk d fun k =>
      { k with
        queue := k.queue.tail
        context := some (startOf s d e.handle .story .header (s.headerLayout e.handle)) }).setMark e.handle d .active := by
  unfold State.takeHead
  dsimp only
  rw [kind]
  exact beginHeader_marked s d e.handle _

theorem takeHead_notice (s : State) (d : DeskId) {e : DeskEntry} (kind : e.kind = .killNotice) {u : State}
    (tail : u = s.onDesk d fun k => { k with queue := k.queue.tail }) :
    s.takeHead d e = (u.beginNext d (startOf u d e.handle .killNotice .header [])
      (.notice .killNotice e.handle .finish)).settleEnded d e.handle := by
  unfold State.takeHead
  dsimp only
  rw [kind, tail]
  rfl

theorem takeHead_notice_sent {s : State} {d : DeskId} {e : DeskEntry} (kind : e.kind = .killNotice) {u : State}
    (tail : u = s.onDesk d fun k => { k with queue := k.queue.tail }) (sent : ¬ LeftOut u .killNotice) :
    s.takeHead d e = u.onDesk d fun k =>
      { k with
        context := some (startOf u d e.handle .killNotice (.notice .killNotice e.handle .finish)
          (u.noticeLayout .killNotice e.handle)) } := by
  rw [takeHead_notice s d kind tail]
  exact beginNext_settled_goesOn (goesOn_notice d _ e.handle .finish sent) e.handle

theorem takeHead_notice_leftOut {s : State} {d : DeskId} {e : DeskEntry} (kind : e.kind = .killNotice) {u : State}
    (tail : u = s.onDesk d fun k => { k with queue := k.queue.tail }) (out : LeftOut u .killNotice) :
    s.takeHead d e = ended u d e.handle := by
  rw [takeHead_notice s d kind tail]
  exact beginNext_settled_endsAt (endsAt_notice e.handle out)

theorem leftOut_other {s : State} {k : NoticeKind} (other : k ≠ .resume) : LeftOut s k ↔ s.phrase k.phrase = [] :=
  ⟨fun ⟨empty, _⟩ => empty, fun empty => ⟨empty, fun resume => absurd resume other⟩⟩

/-- Settles O46: the three places in order, and how the item taken begins. -/
theorem takeNextItemInOrder : Obligations.TakeNextItemInOrder := by
  intro s d
  have tail : ∀ more {e : DeskEntry}, (s.desk d).queue = e :: more →
      (s.onDesk d fun k => { k with queue := more }) = s.onDesk d fun k => { k with queue := k.queue.tail } :=
    fun more e queue => onDesk_congr _ (by rw [queue]; rfl)
  refine ⟨fun idle => congrArg Host.Outcome.next ?_, fun isOpen context held => ⟨fun f direct => ?_,
    fun v direct saved uncut phrase => ?_, fun v u first direct saved cut uncut => ?_,
    fun e more direct saved queue => ⟨fun kind phrase => ?_, fun kind => ?_, fun kind phrase => ?_⟩⟩⟩
  · rw [takeNext_idle idle]
  · refine congrArg (fun t : State => Host.Outcome.next ((t.testFlag d).testRooms)) ?_
    rw [takeNext_direct isOpen context held direct]
    exact beginHeader_marked s d f.handle _
  · refine congrArg (fun t : State => Host.Outcome.next ((t.testFlag d).testRooms)) ?_
    rw [takeNext_saved isOpen context held direct saved,
      takeSaved_eq s d v (u := s.onDesk d fun k => { k with saved := none }) (fun _ => rfl)
        (fun n cut => by rw [uncut] at cut; cases cut), first_of_uncut uncut,
      beginNext_settled_goesOn (goesOn_notice d _ v.handle v.resume.continuation fun out => phrase out.1), onDesk_onDesk]
    cases v.resume <;> rfl
  · have firstIs : first = v.first := by
      cases e : v.cutNotice with
      | none =>
        rw [(uncut e).1, first_of_uncut e]
        cases v.resume <;> rfl
      | some n => rw [(cut n e).1, first_of_cut e]
    have taken : s.takeNext d =
        (u.beginNext d (startOf s d v.handle .story .header []) first).settleEnded d v.handle := by
      rw [takeNext_saved isOpen context held direct saved, firstIs]
      exact takeSaved_eq s d v (fun e => (uncut e).2) fun n e => (cut n e).2
    have same : startOf u d v.handle .story .header [] = startOf s d v.handle .story .header [] ∧ u.setup = s.setup := by
      cases e : v.cutNotice with
      | none =>
        rw [(uncut e).2]
        exact ⟨rfl, rfl⟩
      | some n =>
        rw [(cut n e).2]
        exact ⟨rfl, rfl⟩
    refine ⟨fun y on => ?_, fun ends => ?_⟩
    · refine congrArg (fun t : State => Host.Outcome.next ((t.testFlag d).testRooms)) ?_
      rw [taken, beginNext_settled_goesOn on]
    · refine congrArg (fun t : State => Host.Outcome.next ((t.testFlag d).testRooms)) ?_
      rw [taken]
      exact beginNext_settled_endsAt ((endsAt_congr same.2 first).mpr ends)
  · refine congrArg (fun t : State => Host.Outcome.next ((t.testFlag d).testRooms)) ?_
    rw [takeNext_head isOpen context held direct saved queue,
      takeHead_notice_leftOut kind (tail more queue) ((leftOut_other (k := .killNotice) nofun).mpr phrase)]
  · refine congrArg (fun t : State => Host.Outcome.next ((t.testFlag d).testRooms)) ?_
    rw [takeNext_head isOpen context held direct saved queue, takeHead_story s d kind]
    refine congrArg (fun t : State => t.setMark e.handle d .active) (onDesk_congr _ ?_)
    rw [queue]
    rfl
  · refine congrArg (fun t : State => Host.Outcome.next ((t.testFlag d).testRooms)) ?_
    rw [takeNext_head isOpen context held direct saved queue, takeHead_notice_sent kind (tail more queue)
      fun out => phrase ((leftOut_other (k := .killNotice) nofun).mp out), onDesk_onDesk]
    rfl

end Sys2Proof.Machine
end

section
/-!
PROOFS. The codes of a group (R107 to R110), one turn of a desk sender (R107 to R116, R137) and the flash break (R95, R122).
-/

namespace Sys2Proof.Machine

open Sys2Proof.Claims

/-! ### The codes of a group (R109, R110) -/

/-- The shift code before a code that occupies a column. -/
theorem columnCode_eq_printed (s : State) (limit : Nat) (p : PrintState) (shift : Shift) (code : FiveUnit)
    {change : List FiveUnit}
    (same : change = if shift = p.shift then [] else if shift = .letters then [s.codeLtrs] else [s.codeFigs]) :
    s.columnCode limit p change shift code = printed s limit p shift code := by
  subst same
  unfold State.columnCode printed State.lineEndCodes
  split <;> rfl

theorem truncate_eq_ofNat (b : Byte) : (b.truncate 5 : FiveUnit) = BitVec.ofNat 5 (b.toNat % 32) := by
  apply BitVec.eq_of_toNat_eq
  simp

theorem charCodes_eq (s : State) (limit : Nat) (p : PrintState) (b : Byte) :
    s.charCodes limit p b = converted s limit p (.char b) := by
  unfold State.charCodes converted
  dsimp only
  rw [truncate_eq_ofNat]
  have four : (s.conversion b).toNat / 32 % 4 < 4 := Nat.mod_lt _ (by omega)
  generalize (s.conversion b).toNat / 32 % 4 = n at four ⊢
  obtain h | h | h | h : n = 0 ∨ n = 1 ∨ n = 2 ∨ n = 3 := by omega
  · subst h
    rfl
  · subst h
    exact columnCode_eq_printed s limit p .letters _ (by cases p.shift <;> rfl)
  · subst h
    exact columnCode_eq_printed s limit p .figures _ (by cases p.shift <;> rfl)
  · subst h
    exact columnCode_eq_printed s limit p p.shift _ (by rw [if_pos rfl])

theorem groupCodes_eq_converted (s : State) (limit : Nat) (p : PrintState) (g : Group) :
    s.groupCodes limit p g = converted s limit p g := by
  cases g with
  | opening =>
    unfold State.groupCodes converted
    by_cases column : p.column = 0
    · rw [if_neg (by simpa using column), if_pos column]
      rfl
    · rw [if_pos column, if_neg column]
      rfl
  | bell =>
    unfold State.groupCodes converted
    dsimp only
    split <;> rfl
  | char b => exact charCodes_eq s limit p b
  | space => exact columnCode_eq_printed s limit p p.shift _ (by rw [if_pos rfl])
  | lineEnd => rfl
  | feed => rfl

theorem printed_length_le (s : State) (limit : Nat) (p : PrintState) (shift : Shift) (code : FiveUnit) :
    (printed s limit p shift code).codes.length ≤ 4 := by
  unfold printed
  dsimp only
  split_ifs <;> simp

theorem converted_length_le (s : State) (limit : Nat) (p : PrintState) (g : Group) :
    (converted s limit p g).codes.length ≤ 4 := by
  cases g with
  | opening =>
    unfold converted
    dsimp only
    split <;> simp
  | bell =>
    unfold converted
    dsimp only
    split <;> simp
  | char b =>
    unfold converted
    dsimp only
    split_ifs
    · simp
    · exact printed_length_le _ _ _ _ _
    · exact printed_length_le _ _ _ _ _
    · exact printed_length_le _ _ _ _ _
  | space => exact printed_length_le _ _ _ _ _
  | lineEnd => simp [converted]
  | feed => simp [converted]

/-! ### A group's codes in the buffer (R107, R108) -/

theorem appendCodes_untagged (buffer : List BufferCode) (codes : List FiveUnit) :
    appendCodes buffer codes false = buffer ++ codes.map fun x => ⟨x, false⟩ := by
  unfold appendCodes
  rcases List.eq_nil_or_concat codes with rfl | ⟨front, x, rfl⟩ <;> simp

theorem appendCodes_tagged {codes : List FiveUnit} {x : FiveUnit} (last : codes.getLast? = some x)
    (buffer : List BufferCode) :
    appendCodes buffer codes true = buffer ++ codes.dropLast.map (fun y => ⟨y, false⟩) ++ [⟨x, true⟩] := by
  unfold appendCodes
  rw [last]

theorem placeGroup_untagged (s : State) (d : DeskId) (g : GroupCodes) :
    s.placeGroup d g false = s.onDesk d fun k => placed k g := by
  unfold State.placeGroup placed
  refine onDesk_congr _ ?_
  rw [appendCodes_untagged]

theorem hasRoom_eq_true_iff (k : Desk) (g : GroupCodes) : k.hasRoom g = true ↔ k.buffer.length + g.codes.length ≤ 8 := by
  unfold Desk.hasRoom bufferLimit
  exact decide_eq_true_iff

/-! ### The flash break that is due (R122) -/

theorem breakReady_eq_none {s : State} {d : DeskId} {c : SendContext} (context : (s.desk d).context = some c)
    (no : (s.desk d).preempt = false ∨ c.openingDone = false ∨ ¬ FlashWaits s d) : s.breakReady d = none := by
  have due : ((s.desk d).preempt && c.openingDone && s.flashDue d) = false := by
    rcases no with preempt | opening | notWaits
    · rw [preempt]
      rfl
    · rw [opening, Bool.and_false]
      rfl
    · rw [Bool.eq_false_iff.mpr (mt (flashDue_eq_true_iff s d).mp notWaits), Bool.and_false]
  unfold State.breakReady
  rw [context]
  cases (s.desk d).queue.head? with
  | none => rfl
  | some e => simp [due]

theorem breakReady_eq_some {s : State} {d : DeskId} {c : SendContext} {e : DeskEntry} {more : List DeskEntry}
    (context : (s.desk d).context = some c) (queue : (s.desk d).queue = e :: more) (preempt : (s.desk d).preempt = true)
    (waits : FlashWaits s d) (opening : c.openingDone = true) : s.breakReady d = some (c, e) := by
  unfold State.breakReady
  rw [context, queue, preempt, (flashDue_eq_true_iff s d).mpr waits]
  dsimp only [List.head?]
  rw [opening]
  rfl

theorem breakReady_of_no_context {s : State} {d : DeskId} (context : (s.desk d).context = none) :
    s.breakReady d = none := by
  unfold State.breakReady
  rw [context]

theorem breakStep_of_none {s : State} {d : DeskId} (no : s.breakReady d = none) : s.breakStep d = s := by
  unfold State.breakStep
  rw [no]

theorem breakStep_of_some {s : State} {d : DeskId} {c : SendContext} {e : DeskEntry}
    (ready : s.breakReady d = some (c, e)) : s.breakStep d = (s.breakForFlash d c e).testFlag d := by
  unfold State.breakStep
  rw [ready]

theorem composeStep_of_none {s : State} {d : DeskId} (no : s.breakReady d = none) :
    s.composeStep d = ((s.composeOne d).testFlag d).testRooms := by
  unfold State.composeStep
  rw [no]

theorem composeStep_of_some {s : State} {d : DeskId} (ready : s.breakReady d ≠ none) : s.composeStep d = s.breakStep d := by
  unfold State.composeStep
  cases e : s.breakReady d with
  | none => exact absurd e ready
  | some x => rfl

/-! ### One group (R107) -/

theorem composeOne_of_no_context {s : State} {d : DeskId} (context : (s.desk d).context = none) : s.composeOne d = s := by
  unfold State.composeOne
  rw [context]

theorem composeOne_text {s : State} {d : DeskId} {c : SendContext} (context : (s.desk d).context = some c)
    (segment : c.segment = .text) : s.composeOne d = s.composeText d c := by
  unfold State.composeOne
  rw [context]
  dsimp only
  rw [segment]

theorem composeOne_layout {s : State} {d : DeskId} {c : SendContext} (context : (s.desk d).context = some c)
    (segment : c.segment ≠ .text) : s.composeOne d = s.composeLayout d c := by
  unfold State.composeOne
  rw [context]
  dsimp only
  cases e : c.segment with
  | text => exact absurd e segment
  | header => rfl
  | trailer => rfl
  | notice k h next => rfl

/-- A fixed layout's next group, by whether it has room and is the last one. -/
theorem composeLayout_full {s : State} {d : DeskId} {c : SendContext} {g : Group} {rest : List Group}
    (layout : c.layout = g :: rest)
    (full : 8 < (s.desk d).buffer.length + (s.groupCodes c.columnLimit (s.desk d).print g).codes.length) :
    s.composeLayout d c = s := by
  unfold State.composeLayout
  rw [layout]
  dsimp only
  rw [if_neg (mt (hasRoom_eq_true_iff _ _).mp (by omega))]

theorem composeLayout_more {s : State} {d : DeskId} {c : SendContext} {g : Group} {rest : List Group}
    (layout : c.layout = g :: rest)
    (room : (s.desk d).buffer.length + (s.groupCodes c.columnLimit (s.desk d).print g).codes.length ≤ 8)
    (more : rest ≠ []) :
    s.composeLayout d c =
      (s.onDesk d fun k => placed k (s.groupCodes c.columnLimit (s.desk d).print g)).putContext d
        { c with layout := rest, openingDone := true } := by
  have notLast : rest.isEmpty = false := by cases rest with
    | nil => exact absurd rfl more
    | cons x xs => rfl
  unfold State.composeLayout
  rw [layout]
  dsimp only
  rw [if_pos ((hasRoom_eq_true_iff _ _).mpr room), notLast, if_neg Bool.false_ne_true, Bool.false_and,
    placeGroup_untagged]

theorem composeLayout_last {s : State} {d : DeskId} {c : SendContext} {g : Group} (layout : c.layout = [g])
    (room : (s.desk d).buffer.length + (s.groupCodes c.columnLimit (s.desk d).print g).codes.length ≤ 8) :
    s.composeLayout d c =
      (s.placeGroup d (s.groupCodes c.columnLimit (s.desk d).print g) c.segment.endsItem).afterLayout d
        { c with layout := [], openingDone := true } := by
  unfold State.composeLayout
  rw [layout]
  dsimp only
  rw [if_pos ((hasRoom_eq_true_iff _ _).mpr room), if_pos List.isEmpty_nil, List.isEmpty_nil, Bool.true_and]

theorem endsItem_notice {k : NoticeKind} {h : HandleId} {next : Continuation} (goes : next ≠ .finish) :
    (Segment.notice k h next).endsItem = false := by
  unfold Segment.endsItem
  exact decide_eq_false goes

/-- The segments whose last group is tagged wait with their context. -/
theorem tagged_waits {c : SendContext} (ends : c.segment = .trailer ∨ ∃ k h, c.segment = .notice k h .finish) :
    c.segment.endsItem = true ∧ ∀ (s : State) (d : DeskId), s.afterLayout d c = s.putContext d c := by
  unfold State.afterLayout
  rcases ends with trailer | ⟨k, h, notice⟩
  · rw [trailer]
    exact ⟨rfl, fun _ _ => rfl⟩
  · rw [notice]
    exact ⟨rfl, fun _ _ => by simp⟩

theorem afterLayout_header (s : State) (d : DeskId) {c : SendContext} (segment : c.segment = .header) :
    s.afterLayout d c = s.onDesk d fun k => { k with context := some (atText s d c 0 true) } := by
  unfold State.afterLayout
  rw [segment]
  exact beginText_eq s d c 0 true

theorem afterLayout_notice (s : State) (d : DeskId) {c : SendContext} {k : NoticeKind} {h : HandleId}
    {next : Continuation} (segment : c.segment = .notice k h next) (goes : next ≠ .finish) :
    s.afterLayout d c = (s.beginNext d c next).settleEnded d c.handle := by
  unfold State.afterLayout
  rw [segment]
  exact if_neg goes

theorem composeText_opening {s : State} {d : DeskId} {c : SendContext} (opening : c.openingDone = false) :
    s.composeText d c =
      if (s.desk d).buffer.length + (s.groupCodes c.columnLimit (s.desk d).print .opening).codes.length ≤ 8 then
        (s.onDesk d fun k => placed k (s.groupCodes c.columnLimit (s.desk d).print .opening)).putContext d
          { c with openingDone := true }
      else s := by
  unfold State.composeText
  dsimp only
  rw [opening, if_neg Bool.false_ne_true, placeGroup_untagged]
  exact if_congr (hasRoom_eq_true_iff _ _) rfl rfl

theorem composeText_unstaged {s : State} {d : DeskId} {c : SendContext} (opening : c.openingDone = true)
    (staged : s.stagedByte d c = none) : s.composeText d c = s := by
  unfold State.composeText
  rw [if_pos opening, staged]

theorem composeText_staged {s : State} {d : DeskId} {c : SendContext} {b : Byte} (opening : c.openingDone = true)
    (staged : s.stagedByte d c = some b) : s.composeText d c = s.composeByte d c b := by
  unfold State.composeText
  rw [if_pos opening, staged]

theorem composeByte_full {s : State} {d : DeskId} {c : SendContext} {b : Byte}
    (full : 8 < (s.desk d).buffer.length + (s.groupCodes c.columnLimit (s.desk d).print (textGroup b)).codes.length) :
    s.composeByte d c b = s := by
  unfold State.composeByte
  dsimp only
  rw [if_neg (mt (hasRoom_eq_true_iff _ _).mp (by omega))]

/-- A text byte with room: the cursor and line start move, and at the text's end TRAILER begins. -/
theorem composeByte_room {s : State} {d : DeskId} {c moved : SendContext} {b : Byte} {codes : GroupCodes} {u : State}
    (isCodes : codes = s.groupCodes c.columnLimit (s.desk d).print (textGroup b))
    (isMoved : moved =
      { c with
        cursor := c.cursor + 1
        lineStart := if b = 0x0A then c.cursor + 1 else if codes.folded then c.cursor else c.lineStart })
    (isNext : u = s.onDesk d fun k =>
      { placed k codes with staging0 := k.staging0.handBack c.cursor, staging1 := k.staging1.handBack c.cursor })
    (room : (s.desk d).buffer.length + codes.codes.length ≤ 8) :
    s.composeByte d c b =
      if c.cursor + 1 < (s.story c.handle).textCount then u.putContext d moved else u.beginTrailer d moved false := by
  unfold State.composeByte
  dsimp only
  rw [← isCodes, if_pos ((hasRoom_eq_true_iff _ _).mpr room), placeGroup_untagged, onDesk_onDesk, isMoved, isNext]
  rfl

/-- Settles O47: the fixed layouts, the text byte, and what the step is where nothing is composed. -/
theorem composeGroupIsWhole : Obligations.ComposeGroupIsWhole := by
  refine ⟨fun s d c done g rest codes u context no segment layout isCodes isNext isDone => ?_,
    fun s d c context segment => ⟨fun opening codes isCodes => ?_, fun no opening => ?_⟩,
    fun s d context => ?_, fun s d ready => congrArg Host.Outcome.next (composeStep_of_some ready),
    fun s limit p g => ⟨groupCodes_eq_converted s limit p g, groupCodes_eq_converted s limit p g ▸
      converted_length_le s limit p g⟩⟩
  · have turn : exec (.composeGroup d) s = .next (((s.composeLayout d c).testFlag d).testRooms) :=
      congrArg Host.Outcome.next ((composeStep_of_none (breakReady_eq_none context no)).trans
        (by rw [composeOne_layout context segment]))
    have last : rest = [] → (s.desk d).buffer.length + codes.codes.length ≤ 8 → s.composeLayout d c =
        (s.placeGroup d codes c.segment.endsItem).afterLayout d done := fun nil room => by
      subst nil isCodes isDone
      exact composeLayout_last layout room
    have lastUntagged : rest = [] → (s.desk d).buffer.length + codes.codes.length ≤ 8 → c.segment.endsItem = false →
        s.composeLayout d c = u.afterLayout d done := fun nil room untagged => by
      rw [last nil room, untagged, placeGroup_untagged, isNext]
    refine ⟨fun full => ?_, fun room more => ?_, fun x room nil ends lastCode => ?_, fun room nil header => ?_,
      fun k h next room nil notice goes => ⟨fun x on => ?_, fun ends => ?_⟩⟩
    · rw [turn, composeLayout_full layout (isCodes ▸ full)]
    · rw [turn, composeLayout_more layout (isCodes ▸ room) more, isNext, isCodes]
      rfl
    · have same : done.segment = c.segment := by rw [isDone]
      obtain ⟨tagged, waits⟩ := tagged_waits (c := done) (by rw [same]; exact ends)
      rw [turn, last nil room, ← same, tagged, waits, isNext]
      refine congrArg (fun t : State => Host.Outcome.next ((t.testFlag d).testRooms)) ?_
      unfold State.placeGroup State.putContext
      rw [onDesk_onDesk, onDesk_onDesk]
      refine onDesk_congr _ ?_
      rw [appendCodes_tagged lastCode]
      rfl
    · rw [turn, lastUntagged nil room (by rw [header]; rfl), afterLayout_header u d (by rw [isDone]; exact header)]
    · rw [turn, lastUntagged nil room (by rw [notice]; exact endsItem_notice goes),
        afterLayout_notice u d (by rw [isDone]; exact notice) goes, beginNext_settled_goesOn on]
    · have same : done.handle = c.handle := by rw [isDone]
      rw [turn, lastUntagged nil room (by rw [notice]; exact endsItem_notice goes),
        afterLayout_notice u d (by rw [isDone]; exact notice) goes, beginNext_settled_endsAt ends, same]
  · have turn : exec (.composeGroup d) s = .next (((s.composeText d c).testFlag d).testRooms) :=
      congrArg Host.Outcome.next
        ((composeStep_of_none (breakReady_eq_none context (Or.inr (Or.inl opening)))).trans
          (by rw [composeOne_text context segment]))
    subst isCodes
    refine ⟨fun full => ?_, fun room => ?_⟩
    · rw [turn, composeText_opening opening]
      exact congrArg (fun t : State => Host.Outcome.next ((t.testFlag d).testRooms)) (if_neg (Nat.not_le.mpr full))
    · rw [turn, composeText_opening opening]
      refine congrArg (fun t : State => Host.Outcome.next ((t.testFlag d).testRooms)) ((if_pos room).trans ?_)
      unfold State.putContext
      rw [onDesk_onDesk]
      rfl
  · have turn : exec (.composeGroup d) s = .next (((s.composeText d c).testFlag d).testRooms) :=
      congrArg Host.Outcome.next
        ((composeStep_of_none (breakReady_eq_none context (no.imp_right Or.inr))).trans
          (by rw [composeOne_text context segment]))
    refine ⟨fun staged => by rw [turn, composeText_unstaged opening staged],
      fun b codes moved u staged isCodes isMoved isNext => ?_⟩
    rw [turn, composeText_staged opening staged]
    refine ⟨fun full => by rw [composeByte_full (isCodes ▸ full)], fun room more => ?_, fun room ends => ?_⟩
    · rw [composeByte_room isCodes isMoved isNext room, if_pos more]
      rfl
    · rw [composeByte_room isCodes isMoved isNext room, if_neg (by omega)]
      refine congrArg (fun t : State => Host.Outcome.next ((t.testFlag d).testRooms)) (onDesk_congr _ ?_)
      rw [isMoved]
      rfl
  · exact congrArg Host.Outcome.next ((composeStep_of_none (breakReady_of_no_context context)).trans
      (by rw [composeOne_of_no_context context]))

/-! ### What the layouts of an item are made from -/

/-- A state with another's setup and stories, up to the holders and marks of the stories. -/
def SameText (s t : State) : Prop :=
  t.setup = s.setup ∧ ∀ h, ∃ holders marks, t.story h = { s.story h with holders := holders, marks := marks }

namespace SameText

variable {s t u : State}

theorem refl (s : State) : SameText s s := ⟨rfl, fun _ => ⟨_, _, rfl⟩⟩

theorem trans (first : SameText s t) (second : SameText t u) : SameText s u := by
  refine ⟨second.1.trans first.1, fun h => ?_⟩
  obtain ⟨holders, marks, story⟩ := first.2 h
  obtain ⟨holders', marks', story'⟩ := second.2 h
  exact ⟨holders', marks', by rw [story', story]⟩

theorem onDesk (same : SameText s t) (d : DeskId) (f : Desk → Desk) : SameText s (t.onDesk d f) := same

theorem report (same : SameText s t) (r : Record) : SameText s (t.report r) := by
  refine ⟨(report_setup t r).trans same.1, fun h => ?_⟩
  rw [story_report]
  exact same.2 h

theorem reportStory (same : SameText s t) (k : ReportKind) (subject : Byte) (h : HandleId) (detail : List Byte) :
    SameText s (t.reportStory k subject h detail) := same.report _

theorem onStory (same : SameText s t) (h : HandleId) {f : Story → Story}
    (keeps : ∀ r, ∃ holders marks, f r = { r with holders := holders, marks := marks }) : SameText s (t.onStory h f) := by
  refine ⟨same.1, fun x => ?_⟩
  obtain ⟨holders, marks, story⟩ := same.2 x
  by_cases here : x = h
  · subst here
    obtain ⟨holders', marks', changed⟩ := keeps (t.story x)
    exact ⟨holders', marks', by rw [story_onStory, if_pos rfl, changed, story]⟩
  · exact ⟨holders, marks, by rw [story_onStory, if_neg (Ne.symm here), story]⟩

theorem setMark (same : SameText s t) (h : HandleId) (d : DeskId) (m : Mark) : SameText s (t.setMark h d m) :=
  same.onStory h fun _ => ⟨_, _, rfl⟩

theorem addHolder (same : SameText s t) (h : HandleId) : SameText s (t.addHolder h) :=
  same.onStory h fun _ => ⟨_, _, rfl⟩

theorem releaseHolder (same : SameText s t) (h : HandleId) : SameText s (t.releaseHolder h) :=
  same.onStory h fun _ => ⟨_, _, rfl⟩

section

variable (same : SameText s t)
include same

theorem phrase (p : Fin 11) : t.phrase p = s.phrase p := by
  unfold State.phrase
  rw [same.1]

theorem headerLayout (h : HandleId) : t.headerLayout h = s.headerLayout h := by
  obtain ⟨setup, story⟩ := same
  obtain ⟨holders, marks, story⟩ := story h
  unfold State.headerLayout State.headerWord State.headerReference State.spacePhrase State.phrase State.agencyLetters
  rw [story, setup]

theorem noticeLayout (k : NoticeKind) (h : HandleId) : t.noticeLayout k h = s.noticeLayout k h := by
  obtain ⟨setup, story⟩ := same
  obtain ⟨holders, marks, story⟩ := story h
  unfold State.noticeLayout State.spacePhrase State.phrase State.agencyLetters
  rw [story, setup]

theorem trailerLayout {d : DeskId} (column : (t.desk d).column = (s.desk d).column) (c : SendContext) (b : Bool) :
    t.trailerLayout d c b = s.trailerLayout d c b := by
  obtain ⟨setup, story⟩ := same
  obtain ⟨holders, marks, story⟩ := story c.handle
  unfold State.trailerLayout State.signOff
  rw [story, setup, column]

theorem atText {d : DeskId} (column : (t.desk d).column = (s.desk d).column) (c : SendContext) (o : Nat) (b : Bool) :
    atText t d c o b = atText s d c o b := by
  unfold Claims.atText
  rw [same.trailerLayout column]
  obtain ⟨holders, marks, story⟩ := same.2 c.handle
  rw [story]

theorem leftOut_iff (k : NoticeKind) : LeftOut t k ↔ LeftOut s k := leftOut_congr same.1 k

theorem goesOn_iff {d : DeskId} (column : (t.desk d).column = (s.desk d).column) (c y : SendContext) :
    ∀ x, goesOn t d c x y ↔ goesOn s d c x y
  | .finish => Iff.rfl
  | .header => by
    unfold goesOn
    rw [same.headerLayout]
  | .text o => by
    unfold goesOn
    rw [same.atText column]
  | .trailer => by
    unfold goesOn
    rw [same.trailerLayout column]
  | .notice k h next => by
    unfold goesOn
    rw [same.leftOut_iff, same.noticeLayout, goesOn_iff column c y next]

theorem startOf (d : DeskId) (h : HandleId) (k : ItemKind) (g : Segment) (l : List Group) :
    startOf t d h k g l = startOf s d h k g l := by
  unfold Claims.startOf State.columnLimit State.feedLines
  rw [same.1]

end

end SameText

/-! ### The flash break (R95, R122) -/

/-- What a broken item's resume point is. -/
theorem resumePoint_eq {c : SendContext} (segment : c.segment = .header ∨ c.segment = .text) :
    c.resumePoint = if c.segment = .text then .text c.lineStart else .header := by
  unfold SendContext.resumePoint
  rcases segment with header | text
  · rw [header, if_neg nofun]
  · rw [text, if_pos rfl]

/-- A desk as the flash break leaves it, its context still to come. -/
def brokenOff (c : SendContext) (resume : ResumePoint) (k : Desk) : Desk :=
  { k.raiseEpoch with
    queue := k.queue.tail
    saved := some { handle := c.handle, resume := resume, cutNotice := none }
    preempt := false }

/-- The context a flash begins with behind its break. -/
def flashContext (s : State) (d : DeskId) (c : SendContext) (e : DeskEntry) : SendContext :=
  if s.phrase 4 = [] then startOf s d e.handle .story .header (s.headerLayout e.handle)
  else startOf s d e.handle .story (.notice .breakNotice c.handle .header) (s.noticeLayout .breakNotice c.handle)

theorem goesOn_flash (s : State) (d : DeskId) (c : SendContext) (e : DeskEntry) :
    goesOn s d (startOf s d e.handle .story .header []) (.notice .breakNotice c.handle .header)
      (flashContext s d c e) := by
  have out : LeftOut s .breakNotice ↔ s.phrase 4 = [] := leftOut_other nofun
  unfold flashContext
  refine And.intro (fun leftOut => ?_) fun sent => ?_
  · rw [if_pos (out.mp leftOut)]
    rfl
  · rw [if_neg (mt out.mpr sent)]
    rfl

/-- The record of a flash break. -/
def flashRecord (s : State) (d : DeskId) (c : SendContext) (e : DeskEntry) : Record :=
  naming s .flashBreak (byte (d.val + 1)) c.handle ([byte c.resumePoint.code] ++ leBytes 2 c.resumePoint.offset ++
    [byte e.handle.val, (s.story e.handle).generation] ++ leBytes 2 (s.story e.handle).serial)

/-- A record that names a story does not depend on the holders and marks. -/
theorem naming_congr {s t : State} (same : SameText s t) (clock : t.clock = s.clock) (k : ReportKind) (subject : Byte)
    (h : HandleId) (detail : List Byte) : naming t k subject h detail = naming s k subject h detail := by
  obtain ⟨holders, marks, story⟩ := same.2 h
  unfold naming
  rw [story, clock]

theorem breakForFlash_eq (s : State) (d : DeskId) (c : SendContext) (e : DeskEntry) :
    s.breakForFlash d c e =
      (((s.onDesk d (brokenOff c c.resumePoint)).setMark e.handle d .active).report (flashRecord s d c e)).onDesk d
        fun k => { k with context := some (flashContext s d c e) } := by
  have same : SameText s ((s.onDesk d (brokenOff c c.resumePoint)).setMark e.handle d .active) :=
    ((SameText.refl s).onDesk d (brokenOff c c.resumePoint)).setMark e.handle d .active
  have record : naming ((s.onDesk d (brokenOff c c.resumePoint)).setMark e.handle d .active) .flashBreak
      (byte (d.val + 1)) c.handle ([byte c.resumePoint.code] ++ leBytes 2 c.resumePoint.offset ++
        [byte e.handle.val,
          (((s.onDesk d (brokenOff c c.resumePoint)).setMark e.handle d .active).story e.handle).generation] ++
        leBytes 2 (((s.onDesk d (brokenOff c c.resumePoint)).setMark e.handle d .active).story e.handle).serial) =
      flashRecord s d c e := by
    obtain ⟨holders, marks, story⟩ := same.2 e.handle
    rw [naming_congr same rfl, story]
    rfl
  have reported := same.report (flashRecord s d c e)
  have on : goesOn (((s.onDesk d (brokenOff c c.resumePoint)).setMark e.handle d .active).report (flashRecord s d c e)) d
      (startOf (((s.onDesk d (brokenOff c c.resumePoint)).setMark e.handle d .active).report (flashRecord s d c e)) d
        e.handle .story .header []) (.notice .breakNotice c.handle .header) (flashContext s d c e) := by
    rw [reported.startOf, reported.goesOn_iff (by simp [State.setMark, brokenOff, Desk.raiseEpoch])]
    exact goesOn_flash s d c e
  rw [← beginNext_goesOn on, ← record]
  rfl

/-- A desk with a saved context is not due a flash break. -/
theorem flashDue_of_saved {s : State} {d : DeskId} {v : SavedContext} (saved : (s.desk d).saved = some v) :
    s.flashDue d = false := by
  unfold State.flashDue
  simp [saved]

/-- The whole step of a break: the preempt flag is down after it, the saved context's place being taken. -/
theorem breakStep_eq {s : State} {d : DeskId} {c : SendContext} {e : DeskEntry} (ready : s.breakReady d = some (c, e)) :
    s.breakStep d =
      (((s.onDesk d (brokenOff c c.resumePoint)).setMark e.handle d .active).report (flashRecord s d c e)).onDesk d
        fun k => { k with context := some (flashContext s d c e), preempt := false } := by
  rw [breakStep_of_some ready, breakForFlash_eq, switch_testFlag,
    flashDue_of_saved (v := { handle := c.handle, resume := c.resumePoint, cutNotice := none })
      (by simp [State.setMark, brokenOff])]

theorem markAt_setMark (s : State) (h : HandleId) (d : DeskId) (m : Mark) : (s.setMark h d m).markAt h d = m := by
  unfold State.markAt State.setMark
  rw [story_onStory, if_pos rfl]
  exact (getElem_modifyAt _ d d _).trans (if_pos rfl)

/-- Settles O48: the break in its parts, and the cases without one. -/
theorem flashBreakSavesItem : Obligations.FlashBreakSavesItem := by
  refine ⟨fun s d c e more resume context queue preempt waits opening isResume => ?_, fun s d no => ?_⟩
  · obtain ⟨_, _, _, ⟨c', context', _, _, segment⟩, _⟩ := id waits
    obtain rfl : c' = c := Option.some.inj (context'.symm.trans context)
    rw [← resumePoint_eq segment] at isResume
    subst isResume
    refine ⟨_, congrArg Host.Outcome.next (breakStep_eq (breakReady_eq_some context queue preempt waits opening)),
      ?_, ?_, ?_, fun d' other => ?_, ?_⟩
    · simp [State.setMark, brokenOff, Desk.raiseEpoch, flashContext, queue]
    · have reported : ((((s.onDesk d (brokenOff c' c'.resumePoint)).setMark e.handle d .active).report
          (flashRecord s d c' e)).onDesk d fun k =>
            { k with context := some (flashContext s d c' e), preempt := false }).markAt e.handle d =
          ((s.onDesk d (brokenOff c' c'.resumePoint)).setMark e.handle d .active).markAt e.handle d := by
        unfold State.markAt
        rw [story_onDesk, story_report]
      rw [reported, markAt_setMark]
    · rw [onDesk_writer, report_eq_onWriter, report_eq_onWriter]
      rfl
    · simp [State.setMark, Ne.symm other]
    · rw [report_eq_onWriter]
      rfl
  · have none : s.breakReady d = none := by
      cases context : (s.desk d).context with
      | none => exact breakReady_of_no_context context
      | some c => exact breakReady_eq_none context (no.imp_right (Or.imp_left fun undone => undone c context))
    exact congrArg Host.Outcome.next (breakStep_of_none none)

end Sys2Proof.Machine
end

section
/-!
PROOFS. The slot service of a data frame (R117, R126, R149) and a text read's return (R119, R135, R136, R139).
-/

namespace Sys2Proof.Machine

open Sys2Proof.Claims

/-! ### What an item's end leaves alone (R78, R79, R117) -/

/-- A story whose holders and open marks are gone while it is LIVE. -/
def Spends (s : State) (h : HandleId) : Prop :=
  (s.story h).state = .live ∧ marked s h .queued = 0 ∧ marked s h .active = 0 ∧ (s.story h).holders = 0

/-- A KILLED or SUPERSEDED story without a holder. -/
def Frees (s : State) (h : HandleId) : Prop :=
  ((s.story h).state = .killed ∨ (s.story h).state = .superseded) ∧ (s.story h).holders = 0

theorem settled_of_spends {s : State} {h : HandleId} (spends : Spends s h) :
    settled s h = (offWindow (s.onStory h fun r => { r with state := .spent }) h).report (doneRecord s h 4) :=
  if_pos spends

theorem not_spends_of_frees {s : State} {h : HandleId} (frees : Frees s h) : ¬ Spends s h := by
  rintro ⟨live, -⟩
  rcases frees.1 with killed | superseded
  · rw [killed] at live
    cases live
  · rw [superseded] at live
    cases live

theorem settled_of_frees {s : State} {h : HandleId} (frees : Frees s h) :
    settled s h = (({ offWindow s h with completion := s.completion.erase h } : State).onStory h fun r =>
      { generation := r.generation }).report (doneRecord s h (if (s.story h).state = .killed then 5 else 6)) :=
  (if_neg (not_spends_of_frees frees)).trans (if_pos frees)

theorem settled_of_stands {s : State} {h : HandleId} (notSpent : ¬ Spends s h) (notFree : ¬ Frees s h) :
    settled s h = s :=
  (if_neg notSpent).trans (if_neg notFree)

theorem settled_setup (s : State) (h : HandleId) : (settled s h).setup = s.setup := by
  by_cases spends : Spends s h
  · rw [settled_of_spends spends, report_setup]
    rfl
  by_cases frees : Frees s h
  · rw [settled_of_frees frees, report_setup]
    rfl
  · rw [settled_of_stands spends frees]

theorem ended_setup (s : State) (d : DeskId) (h : HandleId) : (ended s d h).setup = s.setup := settled_setup _ h

theorem settled_onTrunk (s : State) (u : TrunkId) (f : Trunk → Trunk) (h : HandleId) :
    settled (s.onTrunk u f) h = (settled s h).onTrunk u f := by
  by_cases spends : Spends s h
  · rw [settled_of_spends spends, report_onTrunk]
    exact settled_of_spends (s := s.onTrunk u f) spends
  by_cases frees : Frees s h
  · rw [settled_of_frees frees, report_onTrunk]
    exact settled_of_frees (s := s.onTrunk u f) frees
  · rw [settled_of_stands spends frees]
    exact settled_of_stands (s := s.onTrunk u f) spends frees

theorem ended_onTrunk (s : State) (u : TrunkId) (f : Trunk → Trunk) (d : DeskId) (h : HandleId) :
    ended (s.onTrunk u f) d h = (ended s d h).onTrunk u f :=
  settled_onTrunk ((s.onStory h fun r => { r with holders := r.holders - 1 }).onDesk d fun k => { k with context := none })
    u f h

/-! ### The service of a desk's slot (R149, Table 8-4) -/

theorem serveDesk_idle {s : State} {d : DeskId}
    (idle : (s.desk d).line = true ∨ (s.desk d).farStop = true ∨ ((s.desk d).buffer = [] ∧ (s.desk d).context = none)) :
    s.serveDesk d = (idleSymbol, s) := by
  unfold State.serveDesk
  dsimp only
  rcases idle with line | farStop | ⟨buffer, context⟩
  · rw [line, Bool.true_or, if_pos rfl]
  · rw [farStop, Bool.or_true, if_pos rfl]
  · rw [buffer, context]
    split <;> rfl

section

variable {s : State} {d : DeskId} (line : (s.desk d).line = false) (farStop : (s.desk d).farStop = false)
include line farStop

theorem serveDesk_code {x : BufferCode} {more : List BufferCode} (buffer : (s.desk d).buffer = x :: more) :
    s.serveDesk d = (codePattern x.code,
      if x.endTag = true then (s.onDesk d fun k => { k with buffer := more }).endByTag d
      else s.onDesk d fun k => { k with buffer := more }) := by
  unfold State.serveDesk
  dsimp only
  rw [line, farStop, buffer]
  rfl

theorem serveDesk_underrun {c : SendContext} (buffer : (s.desk d).buffer = []) (context : (s.desk d).context = some c) :
    s.serveDesk d = (idleSymbol, s.underrun d c) := by
  unfold State.serveDesk
  dsimp only
  rw [line, farStop, buffer, context]
  rfl

end

theorem endByTag_done {s : State} {d : DeskId} {c : SendContext} (context : (s.desk d).context = some c)
    (kind : c.kind = .story) (segment : c.segment = .trailer) :
    s.endByTag d = ended (s.setMark c.handle d .done) d c.handle := by
  unfold State.endByTag
  rw [context]
  dsimp only
  rw [if_pos ⟨kind, segment⟩, endItem_settle]

theorem endByTag_other {s : State} {d : DeskId} {c : SendContext} (context : (s.desk d).context = some c)
    (other : ¬ (c.kind = .story ∧ c.segment = .trailer)) : s.endByTag d = ended s d c.handle := by
  unfold State.endByTag
  rw [context]
  dsimp only
  rw [if_neg other, endItem_settle]

theorem underrun_latched (s : State) (d : DeskId) {c : SendContext} (latch : c.underrunLatch = true) :
    s.underrun d c = s.onDesk d fun k => { k with underruns := raise255 k.underruns } := by
  unfold State.underrun
  dsimp only
  rw [if_pos latch]

theorem underrun_first (s : State) (d : DeskId) {c : SendContext} (latch : c.underrunLatch = false) :
    s.underrun d c =
      (s.onDesk d fun k =>
        { k with underruns := raise255 k.underruns, context := some { c with underrunLatch := true } }).report
        (naming s .underrun (byte (d.val + 1)) c.handle [byte c.segment.code, byte (raise255 (s.desk d).underruns)]) := by
  unfold State.underrun State.putContext
  dsimp only
  rw [if_neg (by rw [latch]; exact Bool.false_ne_true), onDesk_onDesk, desk_onDesk, if_pos rfl]
  rfl

/-- A slot's start, from what the slot carries and what its service leaves. -/
theorem slotStart_eq {s v : State} {u : TrunkId} {f : Framing} {p : Pattern} (transmitter : (s.trunk u).transmitter = some f)
    (data : f.kind = .data) (going : f.stopping = false) (inFrame : f.symbol ≤ s.slotCount u)
    (served : s.serveSlot u f.symbol = (p, v)) :
    s.slotStart u = ((v.onTrunk u fun k =>
      { k with transmitter := some { f with symbol := f.symbol + 1, unit := 1, timer := 0, pattern := p } }).flagAfterSlot u
        f.symbol).testRooms := by
  unfold State.slotStart
  rw [transmitter]
  dsimp only
  rw [if_pos ⟨data, going, inFrame⟩, served]

theorem slotDesk_congr {s t : State} (setup : t.setup = s.setup) (u : TrunkId) (k : Nat) :
    t.slotDesk u k = s.slotDesk u k := by
  unfold State.slotDesk State.slotNumber
  rw [setup]

theorem flagAfterSlot_of_desk {s : State} {u : TrunkId} {k : Nat} {d : DeskId} (slot : s.slotDesk u k = some d) :
    s.flagAfterSlot u k = s.testFlag d := by
  unfold State.flagAfterSlot
  rw [slot]

theorem flagAfterSlot_of_spare {s : State} {u : TrunkId} {k : Nat} (slot : s.slotDesk u k = none) :
    s.flagAfterSlot u k = s := by
  unfold State.flagAfterSlot
  rw [slot]

theorem serveSlot_of_spare {s : State} {u : TrunkId} {k : Nat} (slot : s.slotDesk u k = none) :
    s.serveSlot u k = (idleSymbol, s) := by
  unfold State.serveSlot
  rw [slot]

theorem serveSlot_of_desk {s : State} {u : TrunkId} {k : Nat} {d : DeskId} (slot : s.slotDesk u k = some d) :
    s.serveSlot u k = if (s.trunk u).bringUp.state = .up then s.serveDesk d else (idleSymbol, s) := by
  unfold State.serveSlot
  rw [slot]

/-- Settles O51: the lines of Table 8-4 in order. -/
theorem slotCarriesByTable : Obligations.SlotCarriesByTable := by
  intro s u f send transmitter data going inFrame isSend
  refine ⟨fun slot => ?_, fun d slot => ?_⟩
  · refine congrArg Host.Outcome.next ?_
    rw [slotStart_eq transmitter data going inFrame (serveSlot_of_spare slot), isSend]
    exact congrArg State.testRooms (flagAfterSlot_of_spare slot)
  have turn : ∀ p v, s.serveSlot u f.symbol = (p, v) → v.setup = s.setup →
      exec (.slotStart u) s = .next (((send p v).testFlag d).testRooms) := fun p v served setup => by
    refine congrArg Host.Outcome.next ?_
    rw [slotStart_eq transmitter data going inFrame served, isSend]
    exact congrArg State.testRooms (flagAfterSlot_of_desk ((slotDesk_congr (s := s) setup u _).trans slot))
  refine ⟨fun idle => turn _ _ ?_ rfl, fun up line farStop => ?_⟩
  · rw [serveSlot_of_desk slot]
    rcases idle with notUp | idle
    · rw [if_neg notUp]
      rfl
    · rw [serveDesk_idle idle, ite_self]
      rfl
  have serves : s.serveSlot u f.symbol = s.serveDesk d := by rw [serveSlot_of_desk slot, if_pos up]
  refine ⟨fun x more buffer => ⟨fun untagged => turn _ _ ?_ rfl, fun c u' tagged context isNext => ?_⟩,
    fun c n buffer context isCount => ⟨fun latch => ?_, fun latch => ?_⟩⟩
  · rw [serves, serveDesk_code line farStop buffer, if_neg (by rw [untagged]; exact Bool.false_ne_true)]
  · have code : s.serveSlot u f.symbol =
        (codePattern x.code, (s.onDesk d fun k => { k with buffer := more }).endByTag d) := by
      rw [serves, serveDesk_code line farStop buffer, if_pos tagged]
    have context : ((s.onDesk d fun k => { k with buffer := more }).desk d).context = some c := by simpa using context
    rw [isSend] at isNext
    have other : ¬ (c.kind = .story ∧ c.segment = .trailer) →
        exec (.slotStart u) s = .next (((ended u' d c.handle).testFlag d).testRooms) := fun other => by
      rw [turn _ _ code (by rw [endByTag_other context other, ended_setup]; rfl), endByTag_other context other, isSend,
        isNext, ended_onTrunk]
    refine ⟨fun kind segment => ?_, fun k h kind segment => other fun both => ?_, fun kind => other fun both => ?_⟩
    · rw [turn _ _ code (by rw [endByTag_done context kind segment, ended_setup]; rfl), endByTag_done context kind segment,
        isSend, isNext, ← ended_onTrunk]
      rfl
    · rw [segment] at both
      exact nomatch both.2
    · rw [kind] at both
      exact nomatch both.1
  · have count : ∀ k, k = s.desk d → raise255 k.underruns = n := fun k same => by rw [same, isCount]; rfl
    rw [turn _ _ (serves.trans (serveDesk_underrun line farStop buffer context)) (by rw [underrun_latched s d latch]; rfl),
      underrun_latched s d latch]
    refine congrArg (fun t : State => Host.Outcome.next (((send 0b1110100 t).testFlag d).testRooms)) (onDesk_congr _ ?_)
    rw [count _ rfl]
  · have count : raise255 (s.desk d).underruns = n := by rw [isCount]; rfl
    rw [turn _ _ (serves.trans (serveDesk_underrun line farStop buffer context))
      (by rw [underrun_first s d latch, report_setup]; rfl), underrun_first s d latch, count]
    refine congrArg (fun t : State => Host.Outcome.next (((send 0b1110100 (t.report _)).testFlag d).testRooms))
      (onDesk_congr _ ?_)
    rw [count]

end Sys2Proof.Machine
end

section
/-!
PROOFS. A text read's return (R119, R135, R136, R139).
-/

namespace Sys2Proof.Machine

open Sys2Proof.Claims

/-! ### The older REQUESTED block (R135) -/

theorem awaited_eq_none {g : Staging} (no : ∀ b, g ≠ .requested b) : g.awaited = none := by
  cases g with
  | empty => rfl
  | requested b => exact absurd rfl (no b)
  | full b data => rfl

theorem awaited_eq_some {g : Staging} {b : TextBlock} (awaits : g.awaited = some b) : g = .requested b := by
  cases g with
  | empty => cases awaits
  | requested a => exact congrArg Staging.requested (Option.some.inj awaits)
  | full a data => cases awaits

theorem olderRequested_of {k : Desk} {second : Bool} {b : TextBlock} (older : OlderRequested k second b) :
    k.olderRequested = some (second, b) := by
  unfold Desk.olderRequested
  cases second with
  | true =>
    obtain ⟨requested, first⟩ := older
    rw [requested]
    cases awaits : k.staging0.awaited with
    | none => rfl
    | some c => exact if_neg (Nat.not_le.mpr (first c (awaited_eq_some awaits)))
  | false =>
    obtain ⟨requested, first⟩ := older
    rw [requested]
    cases awaits : k.staging1.awaited with
    | none => rfl
    | some c => exact if_pos (first c (awaited_eq_some awaits))

theorem olderRequested_of_none {k : Desk} (no : ∀ b, k.staging0 ≠ .requested b)
    (no' : ∀ b, k.staging1 ≠ .requested b) : k.olderRequested = none := by
  unfold Desk.olderRequested
  rw [awaited_eq_none no, awaited_eq_none no']

/-! ### The bytes of a block (R135; log entry 3) -/

theorem length_beatsBytes (beats : List BeatData) : (beatsBytes beats).length = 8 * beats.length := by
  unfold beatsBytes
  simp [List.length_flatMap, Nat.mul_comm]

/-- A list read at the first places, with other values behind its end. -/
theorem map_getD_range {α : Type} (l : List α) (f : Nat → α) {n : Nat} (short : l.length ≤ n) :
    ((List.range n).map fun i => (l[i]?).getD (f i)) = l ++ (List.range (n - l.length)).map fun i => f (l.length + i) := by
  refine List.ext_getElem (by simp; omega) fun i inside inside' => ?_
  rw [List.getElem_map, List.getElem_range]
  by_cases here : i < l.length
  · rw [List.getElem_append_left here, List.getElem?_eq_getElem here, Option.getD_some]
  · rw [List.getElem_append_right (by omega), List.getElem_map, List.getElem_range, List.getElem?_eq_none (by omega),
      Option.getD_none, Nat.add_sub_cancel' (by omega)]

/-- The values behind the beats that came. -/
def missingBytes (use_ : Nat) (data : List BeatData) : List Byte :=
  (List.range (32 - (beatsBytes data).length)).map fun i => Config.missingFetchByte use_ ((beatsBytes data).length + i)

theorem blockBytes_eq (use_ : Nat) {data : List BeatData} (short : data.length ≤ 4) :
    blockBytes use_ data = beatsBytes data ++ missingBytes use_ data :=
  map_getD_range _ _ (by rw [length_beatsBytes]; omega)

theorem length_missingBytes (use_ : Nat) {data : List BeatData} (short : data.length ≤ 4) :
    (missingBytes use_ data).length + 8 * data.length = 32 := by
  unfold missingBytes
  rw [List.length_map, List.length_range, length_beatsBytes]
  omega

/-! ### The return (R135, R136, R139) -/

theorem fetchReturn_stale {s : State} {d : DeskId} {epoch : BitVec 8} (stale : (s.desk d).epoch ≠ epoch) (st : Status)
    (data : List BeatData) : s.fetchReturn d epoch st data = s := by
  unfold State.fetchReturn
  exact if_neg stale

theorem fetchReturn_ok {s : State} {d : DeskId} {epoch : BitVec 8} (present : (s.desk d).epoch = epoch)
    (data : List BeatData) : s.fetchReturn d epoch .ok data = s.fillStaging d data := by
  unfold State.fetchReturn
  exact if_pos present

theorem fetchReturn_error {s : State} {d : DeskId} {epoch : BitVec 8} (present : (s.desk d).epoch = epoch)
    (data : List BeatData) : s.fetchReturn d epoch .error data = s.fetchError d := by
  unfold State.fetchReturn
  exact if_pos present

theorem fetchReturn_unasked {s : State} {d : DeskId} (none : (s.desk d).olderRequested = none) (epoch : BitVec 8)
    (st : Status) (data : List BeatData) : s.fetchReturn d epoch st data = s := by
  unfold State.fetchReturn State.fillStaging State.fetchError
  rw [none]
  cases st <;> exact ite_self _

theorem fillStaging_eq {s : State} {d : DeskId} {second : Bool} {b : TextBlock}
    (older : (s.desk d).olderRequested = some (second, b)) (data : List BeatData) :
    s.fillStaging d data =
      ({ s with freeUse := if data.length < 4 then s.freeUse + 1 else s.freeUse } : State).onDesk d fun k =>
        if second then { k with staging1 := .full b (blockBytes s.freeUse data) }
        else { k with staging0 := .full b (blockBytes s.freeUse data) } := by
  unfold State.fillStaging
  rw [older]

/-- A cut without a follow-on: the buffer untagged, staging emptied, the mark CUT and the cut reported, then its notice
(R119). -/
theorem cutCurrent_alone {s v : State} {d : DeskId} {c : SendContext} {notice : NoticeKind}
    (isCut : v = ((s.onDesk d stopped).setMark c.handle d .cut).report
      (naming s .storyCut (byte (d.val + 1)) c.handle [byte notice.code, 0, byte c.segment.code, 0xFF])) :
    s.cutCurrent d c notice none = v.beginNext d c (.notice notice c.handle .finish) := by
  have same : SameText s ((s.onDesk d stopped).setMark c.handle d .cut) :=
    ((SameText.refl s).onDesk d stopped).setMark c.handle d .cut
  rw [isCut, ← naming_congr same rfl]
  unfold State.cutCurrent
  refine congrArg (fun t : State => t.beginNext d c (.notice notice c.handle .finish)) ?_
  exact onDesk_self _ rfl

theorem fetchError_eq {s u : State} {d : DeskId} {second : Bool} {b : TextBlock} {c : SendContext}
    (older : (s.desk d).olderRequested = some (second, b)) (context : (s.desk d).context = some c)
    (segment : c.segment = .text)
    (isReported : u = s.report
      (naming s .fetchError (byte (d.val + 1)) c.handle (leBytes 4 b.address.toNat ++ leBytes 2 b.first))) :
    s.fetchError d = (((u.cutCurrent d c .textLost none).settleEnded d c.handle).testFlag d).testRooms := by
  unfold State.fetchError
  rw [older, context]
  dsimp only
  rw [if_pos segment, isReported]
  rfl

/-- Settles O17: by the epoch, the status and the block that was asked for. -/
theorem textReadReturns : Obligations.TextReadReturns := by
  refine ⟨fun s older newer e d epoch st data entries settled waiting notLocal owner stale => ?_,
    fun s older newer e d second b b0 b1 b2 b3 entries settled waiting notLocal owner asked => ?_,
    fun s older newer e d second b data entries settled waiting notLocal owner asked short => ?_,
    fun s older newer e d st data entries settled waiting notLocal owner no no' => ?_,
    fun s u v older newer e d second b c data entries settled waiting notLocal owner asked context segment isReported
      isCut => ?_⟩
  all_goals have returned st data := (complete_own (s := s) ⟨entries, settled, waiting, notLocal⟩ st data).1 _ _ owner
  · exact congrArg Host.Outcome.next ((returned st data).trans (fetchReturn_stale
      (s := { s with entries := older ++ newer }) stale st data))
  · refine congrArg Host.Outcome.next ((returned _ _).trans ((fetchReturn_ok rfl _).trans
      ((fillStaging_eq (s := { s with entries := older ++ newer }) (olderRequested_of asked) _).trans ?_)))
    have whole : missingBytes s.freeUse [b0, b1, b2, b3] = [] :=
      List.eq_nil_of_length_eq_zero (Nat.add_right_cancel (length_missingBytes s.freeUse (Nat.le_refl 4)))
    rw [blockBytes_eq _ (data := [b0, b1, b2, b3]) (Nat.le_refl 4), whole, List.append_nil]
    rfl
  · refine ⟨_, missingBytes s.freeUse data, congrArg Host.Outcome.next ((returned _ _).trans ((fetchReturn_ok rfl _).trans
      (fillStaging_eq (s := { s with entries := older ++ newer }) (olderRequested_of asked) _))),
      length_missingBytes s.freeUse (Nat.le_of_lt short), ?_⟩
    rw [blockBytes_eq _ (Nat.le_of_lt short)]
    rfl
  · exact congrArg Host.Outcome.next ((returned st data).trans
      (fetchReturn_unasked (s := { s with entries := older ++ newer }) (olderRequested_of_none no no') _ st data))
  · have reported : SameText s u := by
      rw [isReported]
      exact SameText.report (t := { s with entries := older ++ newer }) (SameText.refl s) _
    have same : SameText s v := by
      rw [isCut]
      exact ((reported.onDesk d stopped).setMark c.handle d .cut).report _
    have cut : s.complete .error data =
        (((v.beginNext d c (.notice .textLost c.handle .finish)).settleEnded d c.handle).testFlag d).testRooms := by
      have fails := (returned .error data).trans ((fetchReturn_error rfl data).trans
        (fetchError_eq (s := { s with entries := older ++ newer }) (olderRequested_of asked) context segment isReported))
      rw [fails, cutCurrent_alone (v := v)]
      rw [isCut, segment, naming_congr reported (by rw [isReported, report_clock])]
      rfl
    refine ⟨fun y on => congrArg Host.Outcome.next (cut.trans ?_), fun out => congrArg Host.Outcome.next (cut.trans ?_)⟩
    · rw [beginNext_settled_goesOn on]
    · rw [beginNext_settled_endsAt (endsAt_notice c.handle ((same.leftOut_iff .textLost).mpr out))]

end Sys2Proof.Machine
end

section
/-!
SUPPORT. What the placement, cutting, ending and settling of stories can do to the state, said once as a path of edits: which
desks it touches, whose states it may retire and whose target it may record. Every operation of Queues.lean, Composer.lean and
Release.lean is such a path, and what a path keeps is proved by its steps.
-/

namespace Sys2Proof.Machine

open Sys2Proof.Claims

/-- One change that the operations on stories make: to a desk of `D` or a mark there, a window, the completion list, the end of
a hold, a record, a holder; LIVE to SPENT; the record of a KILLED or SUPERSEDED story cleared; a story of `R` retired or LIVE;
the target of a story of `F` recorded. -/
inductive Edit (D : DeskId → Prop) (R F : HandleId → Prop) : State → State → Prop
  | onDesk (s : State) {d : DeskId} (touched : D d) (f : Desk → Desk) : Edit D R F s (s.onDesk d f)
  | setMark (s : State) (h : HandleId) {d : DeskId} (touched : D d) (m : Mark) : Edit D R F s (s.setMark h d m)
  | onWindow (s : State) (w : WindowId) (f : Window → Window) : Edit D R F s (s.onWindow w f)
  | completion (s : State) (l : List HandleId) : Edit D R F s { s with completion := l }
  | clearHold (s : State) : Edit D R F s s.clearHold
  | report (s : State) (r : Record) : Edit D R F s (s.report r)
  | addHolder (s : State) (h : HandleId) : Edit D R F s (s.addHolder h)
  | releaseHolder (s : State) (h : HandleId) : Edit D R F s (s.releaseHolder h)
  | spend (s : State) {h : HandleId} (live : (s.story h).state = .live) : Edit D R F s (s.setStoryState h .spent)
  | clear (s : State) {h : HandleId} (gone : (s.story h).state = .killed ∨ (s.story h).state = .superseded) :
    Edit D R F s (s.onStory h Story.cleared)
  | retire (s : State) {h : HandleId} (allowed : R h) {st : StoryState}
    (final : st = .live ∨ st = .killed ∨ st = .superseded) : Edit D R F s (s.setStoryState h st)
  | refer (s : State) {h : HandleId} (allowed : F h) (x : Option (HandleId × BitVec 8)) :
    Edit D R F s (s.onStory h fun r => { r with refHandle := x })

/-- A path of edits. -/
def Edits (D : DeskId → Prop) (R F : HandleId → Prop) : State → State → Prop := Relation.ReflTransGen (Edit D R F)

/-- No story. -/
def noStory : HandleId → Prop := fun _ => False

/-- Every desk. -/
def everyDesk : DeskId → Prop := fun _ => True

namespace Edits

variable {D : DeskId → Prop} {R F : HandleId → Prop} {s₀ s t : State}

theorem refl (s : State) : Edits D R F s s := Relation.ReflTransGen.refl

theorem step (e : Edits D R F s₀ s) (last : Edit D R F s t) : Edits D R F s₀ t := Relation.ReflTransGen.tail e last

theorem trans (first : Edits D R F s₀ s) (second : Edits D R F s t) : Edits D R F s₀ t :=
  Relation.ReflTransGen.trans first second

/-- What every edit keeps, a path keeps. -/
theorem keeps {P : State → Prop} (closed : ∀ {s t}, Edit D R F s t → P s → P t) (e : Edits D R F s t) (start : P s) :
    P t := by
  induction e with
  | refl => exact start
  | tail _ last ih => exact closed last ih

/-- A path is one with wider sets too. -/
theorem mono {D' : DeskId → Prop} {R' F' : HandleId → Prop} (desks : ∀ d, D d → D' d) (retired : ∀ h, R h → R' h)
    (referred : ∀ h, F h → F' h) (e : Edits D R F s t) : Edits D' R' F' s t := by
  refine keeps (P := Edits D' R' F' s) (fun edit path => path.step ?_) e (refl s)
  cases edit with
  | onDesk touched f => exact .onDesk _ (desks _ touched) f
  | setMark h touched m => exact .setMark _ h (desks _ touched) m
  | onWindow w f => exact .onWindow _ w f
  | completion l => exact .completion _ l
  | clearHold => exact .clearHold _
  | report r => exact .report _ r
  | addHolder h => exact .addHolder _ h
  | releaseHolder h => exact .releaseHolder _ h
  | spend live => exact .spend _ live
  | clear gone => exact .clear _ gone
  | retire allowed final => exact .retire _ (retired _ allowed) final
  | refer allowed x => exact .refer _ (referred _ allowed) x

theorem foldl {β : Type} {f : State → β → State} (each : ∀ s b, Edits D R F s (f s b)) (l : List β)
    (e : Edits D R F s₀ s) : Edits D R F s₀ (l.foldl f s) := by
  induction l generalizing s with
  | nil => exact e
  | cons b l ih => exact ih (e.trans (each s b))

/-! ### Flags, rooms and holds -/

theorem onDesk (e : Edits D R F s₀ s) {d : DeskId} (touched : D d) (f : Desk → Desk) : Edits D R F s₀ (s.onDesk d f) :=
  e.step (.onDesk s touched f)

theorem setMark (e : Edits D R F s₀ s) (h : HandleId) {d : DeskId} (touched : D d) (m : Mark) :
    Edits D R F s₀ (s.setMark h d m) :=
  e.step (.setMark s h touched m)

theorem onWindow (e : Edits D R F s₀ s) (w : WindowId) (f : Window → Window) : Edits D R F s₀ (s.onWindow w f) :=
  e.step (.onWindow s w f)

theorem clearHold (e : Edits D R F s₀ s) : Edits D R F s₀ s.clearHold := e.step (.clearHold s)

theorem report (e : Edits D R F s₀ s) (r : Record) : Edits D R F s₀ (s.report r) := e.step (.report s r)

theorem reportPlain (e : Edits D R F s₀ s) (k : ReportKind) (b : Byte) (l : List Byte) :
    Edits D R F s₀ (s.reportPlain k b l) := e.report _

theorem reportStory (e : Edits D R F s₀ s) (k : ReportKind) (b : Byte) (h : HandleId) (l : List Byte) :
    Edits D R F s₀ (s.reportStory k b h l) := e.report _

theorem addHolder (e : Edits D R F s₀ s) (h : HandleId) : Edits D R F s₀ (s.addHolder h) := e.step (.addHolder s h)

theorem releaseHolder (e : Edits D R F s₀ s) (h : HandleId) : Edits D R F s₀ (s.releaseHolder h) :=
  e.step (.releaseHolder s h)

theorem testFlag (e : Edits D R F s₀ s) {d : DeskId} (touched : D d) : Edits D R F s₀ (s.testFlag d) :=
  e.onDesk touched _

theorem testFlags (e : Edits everyDesk R F s₀ s) : Edits everyDesk R F s₀ s.testFlags :=
  foldl (fun s _ => (refl s).testFlag trivial) _ e

theorem testReserve (e : Edits D R F s₀ s) (w : WindowId) : Edits D R F s₀ (s.testReserve w) := by
  unfold State.testReserve
  split
  · split
    · exact e
    · exact (e.onWindow _ _).reportPlain _ _ _
  · exact e.onWindow _ _

theorem testRingHold (e : Edits D R F s₀ s) : Edits D R F s₀ s.testRingHold := by
  unfold State.testRingHold
  split
  · split
    · exact e
    · exact e.clearHold
  · exact e

theorem testRooms (e : Edits D R F s₀ s) : Edits D R F s₀ s.testRooms :=
  (foldl (fun s w => (refl s).testReserve w) allWindows e).testRingHold

theorem clearTableHold (e : Edits D R F s₀ s) : Edits D R F s₀ s.clearTableHold := by
  unfold State.clearTableHold
  split
  · exact e.clearHold
  · exact e

/-! ### The story table -/

theorem leaveWindowList (e : Edits D R F s₀ s) (h : HandleId) : Edits D R F s₀ (s.leaveWindowList h) := e.onWindow _ _

theorem freeStory (e : Edits D R F s₀ s) {h : HandleId}
    (gone : (s.story h).state = .killed ∨ (s.story h).state = .superseded) : Edits D R F s₀ (s.freeStory h) := by
  unfold State.freeStory
  have listed : Edits D R F s₀ { s.leaveWindowList h with completion := s.completion.erase h } :=
    (e.leaveWindowList h).step (.completion _ _)
  exact (listed.step (.clear _ gone)).clearTableHold

theorem spendStory (e : Edits D R F s₀ s) {h : HandleId} (live : (s.story h).state = .live) :
    Edits D R F s₀ (s.spendStory h) :=
  (((e.step (.spend s live)).leaveWindowList h).reportStory _ _ _ _).clearTableHold

theorem settleStory (e : Edits D R F s₀ s) (h : HandleId) : Edits D R F s₀ (s.settleStory h) := by
  unfold State.settleStory
  cases state : (s.story h).state with
  | live =>
    dsimp only
    split
    · exact e.spendStory state
    · exact e
  | killed =>
    dsimp only
    split
    · refine (e.reportStory _ _ _ _).freeStory (Or.inl ?_)
      rw [reportStory_eq, story_report, state]
    · exact e
  | superseded =>
    dsimp only
    split
    · refine (e.reportStory _ _ _ _).freeStory (Or.inr ?_)
      rw [reportStory_eq, story_report, state]
    · exact e
  | free => exact e
  | opened => exact e
  | held => exact e
  | spent => exact e

/-! ### The desk queues -/

theorem dropMark (e : Edits D R F s₀ s) {d : DeskId} (touched : D d) (x : DeskEntry) :
    Edits D R F s₀ (s.dropMark d x) := by
  unfold State.dropMark
  split
  · exact e.setMark _ touched _
  · exact e

theorem reportDrop (e : Edits D R F s₀ s) (d : DeskId) (x : DeskEntry) (by_ : Option HandleId) :
    Edits D R F s₀ (s.reportDrop d x by_) := e.reportStory _ _ _ _

theorem joinQueue (e : Edits D R F s₀ s) {d : DeskId} (touched : D d) (x : DeskEntry) :
    Edits D R F s₀ (s.joinQueue d x) := by
  unfold State.joinQueue
  dsimp only
  split
  · exact ((e.onDesk touched _).addHolder _).setMark _ touched _
  · exact (e.onDesk touched _).addHolder _

theorem displaceTail (e : Edits D R F s₀ s) {d : DeskId} (touched : D d) (x : DeskEntry) (by_ : HandleId) :
    Edits D R F s₀ (s.displaceTail d x by_) :=
  ((((e.onDesk touched _).releaseHolder _).dropMark touched x).reportDrop _ _ _).settleStory _

theorem insertEntry (e : Edits D R F s₀ s) {d : DeskId} (touched : D d) (x : DeskEntry) :
    Edits D R F s₀ (s.insertEntry d x) := by
  unfold State.insertEntry
  split
  · exact e.joinQueue touched x
  · split
    · exact e.joinQueue touched x
    · split
      · exact (e.dropMark touched x).reportDrop _ _ _
      · exact (e.displaceTail touched _ _).joinQueue touched x

theorem removeEntry (e : Edits D R F s₀ s) {d : DeskId} (touched : D d) (h : HandleId) :
    Edits D R F s₀ (s.removeEntry d h) :=
  ((e.onDesk touched _).releaseHolder h).setMark h touched _

theorem replaceEntry (e : Edits D R F s₀ s) {d : DeskId} (touched : D d) (old new : HandleId) :
    Edits D R F s₀ (s.replaceEntry d old new) :=
  ((((e.onDesk touched _).releaseHolder old).setMark old touched _).addHolder new).setMark new touched _

theorem placeNewAt (e : Edits D R F s₀ s) (h : HandleId) {d : DeskId} (touched : D d) :
    Edits D R F s₀ (s.placeNewAt h d) := by
  unfold State.placeNewAt
  split
  · exact e.insertEntry touched _
  · exact e

theorem placeNew (e : Edits everyDesk R F s₀ s) (h : HandleId) : Edits everyDesk R F s₀ (s.placeNew h) :=
  foldl (fun s _ => (refl s).placeNewAt h trivial) _ e

/-! ### The desk sender -/

theorem putContext (e : Edits D R F s₀ s) {d : DeskId} (touched : D d) (c : SendContext) :
    Edits D R F s₀ (s.putContext d c) := e.onDesk touched _

theorem beginText (e : Edits D R F s₀ s) {d : DeskId} (touched : D d) (c : SendContext) (o : Nat) (b : Bool) :
    Edits D R F s₀ (s.beginText d c o b) := by
  rw [beginText_eq]
  exact e.onDesk touched _

theorem endItem (e : Edits D R F s₀ s) {d : DeskId} (touched : D d) (c : SendContext) :
    Edits D R F s₀ (s.endItem d c) := (e.releaseHolder _).onDesk touched _

theorem beginNext (e : Edits D R F s₀ s) {d : DeskId} (touched : D d) (c : SendContext) (x : Continuation) :
    Edits D R F s₀ (s.beginNext d c x) := by
  induction x with
  | finish => exact e.endItem touched c
  | header => exact e.putContext touched _
  | text o => exact e.beginText touched c o false
  | trailer => exact e.putContext touched _
  | notice k h next ih =>
    unfold State.beginNext
    split
    · exact ih
    · exact e.putContext touched _

theorem settleEnded (e : Edits D R F s₀ s) (d : DeskId) (h : HandleId) : Edits D R F s₀ (s.settleEnded d h) := by
  unfold State.settleEnded
  split
  · exact e.settleStory h
  · exact e

theorem giveFollowOn (e : Edits D R F s₀ s) {d : DeskId} (touched : D d) (x : Option HandleId) :
    Edits D R F s₀ (s.giveFollowOn d x) := by
  cases x with
  | none => exact e
  | some h => exact (e.addHolder h).setMark h touched _

theorem cutCurrent (e : Edits D R F s₀ s) {d : DeskId} (touched : D d) (c : SendContext) (k : NoticeKind)
    (x : Option HandleId) : Edits D R F s₀ (s.cutCurrent d c k x) :=
  ((((((e.onDesk touched _).setMark _ touched _).reportStory _ _ _ _).giveFollowOn touched x).onDesk touched _).beginNext
    touched c _)

theorem cutSaved (e : Edits D R F s₀ s) {d : DeskId} (touched : D d) (v : SavedContext) (k : NoticeKind)
    (x : Option HandleId) : Edits D R F s₀ (s.cutSaved d v k x) :=
  ((((e.onDesk touched _).setMark _ touched _).reportStory _ _ _ _).giveFollowOn touched x).onDesk touched _

theorem cutOrder (e : Edits D R F s₀ s) {d : DeskId} (touched : D d) (h : HandleId) (k : NoticeKind)
    (x : Option HandleId) : Edits D R F s₀ (s.cutOrder d h k x) := by
  unfold State.cutOrder
  split
  · split
    · exact e.cutCurrent touched _ _ _
    · exact e
  · split
    · exact e.cutCurrent touched _ _ _
    · split
      · exact e.cutSaved touched _ _ _
      · exact e
  · split
    · exact e.cutSaved touched _ _ _
    · exact e
  · exact e

theorem restoreItem (e : Edits D R F s₀ s) {d : DeskId} (touched : D d) (c : SendContext) :
    Edits D R F s₀ (s.restoreItem d c) :=
  ((e.onDesk touched _).beginNext touched _ _).settleEnded _ _

theorem lineReturns (e : Edits D R F s₀ s) {d : DeskId} (touched : D d) : Edits D R F s₀ (s.lineReturns d) := by
  unfold State.lineReturns
  split
  · dsimp only
    split
    · exact e.onDesk touched _
    · exact (e.onDesk touched _).restoreItem touched _
  · exact e

/-! ### Release, KILL and CLOSE DESK -/

theorem retireTarget (e : Edits D R F s₀ s) {h : HandleId} (allowed : R h) {st : StoryState}
    (final : st = .killed ∨ st = .superseded) : Edits D R F s₀ (s.retireTarget h st) :=
  (e.leaveWindowList h).step (.retire _ allowed (Or.inr final))

theorem recordTarget (e : Edits D R F s₀ s) {h : HandleId} (allowed : F h) (x : Option HandleId) :
    Edits D R F s₀ (s.recordTarget h x) := by
  unfold State.recordTarget
  split
  · exact e.step (.refer s allowed _)
  · exact e.reportStory _ _ _ _

theorem placeWriteThruAt (e : Edits D R F s₀ s) (w t : HandleId) {d : DeskId} (touched : D d) :
    Edits D R F s₀ (State.placeWriteThruAt w t s d) := by
  unfold State.placeWriteThruAt
  split
  · split
    · split
      · exact e.replaceEntry touched _ _
      · exact (e.removeEntry touched _).insertEntry touched _
    · exact e.cutOrder touched _ _ _
    · exact e.insertEntry touched _
    all_goals exact e.placeNewAt w touched
  · exact e

theorem placeKillAt (e : Edits D R F s₀ s) (w t : HandleId) {d : DeskId} (touched : D d) :
    Edits D R F s₀ (State.placeKillAt w t s d) := by
  unfold State.placeKillAt
  split
  · split
    · exact e.removeEntry touched _
    · exact e.cutOrder touched _ _ _
    · exact e.insertEntry touched _
    all_goals exact e
  · exact e

theorem hostKillAt (e : Edits D R F s₀ s) (t : HandleId) {d : DeskId} (touched : D d) :
    Edits D R F s₀ (State.hostKillAt t s d) := by
  unfold State.hostKillAt
  split
  · exact e.removeEntry touched _
  · exact e.cutOrder touched _ _ _
  · split
    · exact e.insertEntry touched _
    · exact e
  all_goals exact e

theorem placeWriteThru (e : Edits everyDesk R F s₀ s) (w : HandleId) {x : Option HandleId}
    (allowed : ∀ t, x = some t → R t) : Edits everyDesk R F s₀ (s.placeWriteThru w x) := by
  unfold State.placeWriteThru
  split
  · exact e.placeNew w
  · split
    · exact (e.retireTarget (allowed _ rfl) (Or.inr rfl)).placeNew w
    · exact (foldl (fun s _ => (refl s).placeWriteThruAt w _ trivial) _ e).retireTarget (allowed _ rfl) (Or.inr rfl)

theorem placeKill (e : Edits everyDesk R F s₀ s) (w : HandleId) {x : Option HandleId}
    (allowed : ∀ t, x = some t → R t) : Edits everyDesk R F s₀ (s.placeKill w x) := by
  unfold State.placeKill
  split
  · exact e
  · split
    · exact e.retireTarget (allowed _ rfl) (Or.inl rfl)
    · exact (foldl (fun s _ => (refl s).placeKillAt w _ trivial) _ e).retireTarget (allowed _ rfl) (Or.inl rfl)

theorem placeReleased (e : Edits everyDesk R F s₀ s) {w : HandleId} (referred : (s.story w).mode ≠ .new → F w)
    {x : Option HandleId} (allowed : ∀ t, x = some t → R t) : Edits everyDesk R F s₀ (s.placeReleased w x) := by
  unfold State.placeReleased
  cases mode : (s.story w).mode with
  | new => exact e.placeNew w
  | writeThru => exact (e.recordTarget (referred (by rw [mode]; exact nofun)) x).placeWriteThru w allowed
  | kill => exact (e.recordTarget (referred (by rw [mode]; exact nofun)) x).placeKill w allowed

theorem closeItem (e : Edits D R F s₀ s) {d : DeskId} (touched : D d) (h : HandleId) (b : Bool) :
    Edits D R F s₀ (s.closeItem d h b) := by
  unfold State.closeItem
  dsimp only
  split
  · exact (e.releaseHolder h).setMark h touched _
  · exact e.releaseHolder h

theorem closeEntry (e : Edits D R F s₀ s) {d : DeskId} (touched : D d) (x : DeskEntry) :
    Edits D R F s₀ (State.closeEntry d s x) := (e.releaseHolder _).dropMark touched x

end Edits

end Sys2Proof.Machine
end

section
/-!
SUPPORT. What a path of edits keeps: everything but stories, windows, desks and reports, the desks it does not touch, the
records queued before it, and the fields of a story's record.
-/

namespace Sys2Proof.Machine

open Sys2Proof.Claims

theorem onlyStories_refl (s : State) : OnlyStories s s := rfl

theorem onlyStories_trans {s t u : State} (first : OnlyStories s t) (second : OnlyStories t u) : OnlyStories s u :=
  second.trans (congrArg (fun x : State =>
    { x with
      desks := u.desks, stories := u.stories, windows := u.windows, completion := u.completion, writer := u.writer
      hold := u.hold }) first)

namespace Edits

variable {D : DeskId → Prop} {R F : HandleId → Prop} {s t : State}

theorem onlyStories (e : Edits D R F s t) : OnlyStories s t := by
  refine keeps (fun edit only => onlyStories_trans only ?_) e (onlyStories_refl s)
  cases edit with
  | report r =>
    rw [report_eq_onWriter]
    rfl
  | _ => rfl

theorem desk_eq (e : Edits D R F s t) {d : DeskId} (untouched : ¬ D d) : t.desk d = s.desk d := by
  refine keeps (P := fun u => u.desk d = s.desk d) (fun {u v} edit same => ?_) e rfl
  cases edit with
  | @onDesk d' touched f =>
    have other : d' ≠ d := fun e => untouched (e ▸ touched)
    simpa [other] using same
  | report r => rw [desk_report, same]
  | _ => exact same

/-- The records that waited stand before those that a path reports. -/
theorem queue_append (e : Edits D R F s t) {base : List Record} (start : ∃ more, s.writer.queue = base ++ more) :
    ∃ more, t.writer.queue = base ++ more := by
  refine keeps (P := fun u => ∃ more, u.writer.queue = base ++ more) (fun {u v} edit found => ?_) e start
  cases edit with
  | report r =>
    obtain ⟨more, queue⟩ := found
    rw [report_eq_onWriter]
    unfold State.onWriter State.writerAfterReport
    dsimp only
    split
    · exact ⟨more ++ [r], by simp [queue]⟩
    · exact ⟨more, queue⟩
  | _ => exact found

end Edits

/-! ### The record of one story -/

/-- One change of a story's record by an edit. -/
inductive RecordEdit (D : DeskId → Prop) (retired referred : Prop) : Story → Story → Prop
  | mark (r : Story) {d : DeskId} (touched : D d) (m : Mark) :
    RecordEdit D retired referred r { r with marks := modifyAt r.marks d fun _ => m }
  | holders (r : Story) (n : Nat) : RecordEdit D retired referred r { r with holders := n }
  | spend (r : Story) (live : r.state = .live) : RecordEdit D retired referred r { r with state := .spent }
  | clear (r : Story) (gone : r.state = .killed ∨ r.state = .superseded) : RecordEdit D retired referred r r.cleared
  | retire (r : Story) (allowed : retired) {st : StoryState} (final : st = .live ∨ st = .killed ∨ st = .superseded) :
    RecordEdit D retired referred r { r with state := st }
  | refer (r : Story) (allowed : referred) (x : Option (HandleId × BitVec 8)) :
    RecordEdit D retired referred r { r with refHandle := x }

namespace Edits

variable {D : DeskId → Prop} {R F : HandleId → Prop} {s t : State}

/-- A record is changed by what is done to its own story. -/
theorem record_step {Q : Story → Prop} {h : HandleId}
    (closed : ∀ r r', RecordEdit D (R h) (F h) r r' → Q r → Q r') {u v : State} (edit : Edit D R F u v)
    (start : Q (u.story h)) : Q (v.story h) := by
  have own : ∀ (x : HandleId) (f : Story → Story), (x = h → RecordEdit D (R h) (F h) (u.story h) (f (u.story h))) →
      Q ((u.onStory x f).story h) := fun x f changed => by
    rw [story_onStory]
    split
    case isTrue here =>
      subst here
      exact closed _ _ (changed rfl) start
    case isFalse => exact start
  cases edit with
  | setMark x touched m => exact own x _ fun _ => .mark _ touched m
  | addHolder x => exact own x _ fun _ => .holders _ _
  | releaseHolder x => exact own x _ fun _ => .holders _ _
  | @spend x live => exact own x _ fun here => .spend _ (here ▸ live)
  | @clear x gone => exact own x _ fun here => .clear _ (here ▸ gone)
  | @retire x allowed st final => exact own x _ fun here => .retire _ (here ▸ allowed) final
  | @refer x allowed y => exact own x _ fun here => .refer _ (here ▸ allowed) y
  | report r =>
    rw [story_report]
    exact start
  | _ => exact start

/-- What every change of a record keeps, a path keeps of the record. -/
theorem keepsRecord (e : Edits D R F s t) {h : HandleId} {Q : Story → Prop}
    (closed : ∀ r r', RecordEdit D (R h) (F h) r r' → Q r → Q r') (start : Q (s.story h)) : Q (t.story h) :=
  keeps (P := fun u => Q (u.story h)) (fun edit found => record_step closed edit found) e start

/-- A LIVE or SPENT story that is not retired stays LIVE or SPENT. -/
theorem live_or_spent (e : Edits D R F s t) {h : HandleId} (notRetired : ¬ R h)
    (start : (s.story h).state = .live ∨ (s.story h).state = .spent) :
    (t.story h).state = .live ∨ (t.story h).state = .spent := by
  refine e.keepsRecord (Q := fun r => r.state = .live ∨ r.state = .spent) (fun r r' edit kept => ?_) start
  cases edit with
  | spend live => exact Or.inr rfl
  | clear gone => rcases kept with live | spent <;> simp_all
  | retire allowed final => exact absurd allowed notRetired
  | _ => exact kept

/-- A LIVE or SPENT story's mark at an untouched desk, and its target, stay. -/
theorem mark_eq (e : Edits D R F s t) {h : HandleId} (notRetired : ¬ R h)
    (start : (s.story h).state = .live ∨ (s.story h).state = .spent) {d : DeskId} (untouched : ¬ D d) :
    t.markAt h d = s.markAt h d := by
  refine (e.keepsRecord (Q := fun r => (r.state = .live ∨ r.state = .spent) ∧ r.marks[d] = s.markAt h d)
    (fun r r' edit kept => ?_) ⟨start, rfl⟩).2
  obtain ⟨kept, mark⟩ := kept
  cases edit with
  | @mark d' touched m =>
    have other : d' ≠ d := fun e => untouched (e ▸ touched)
    exact ⟨kept, ((getElem_modifyAt _ d' d _).trans (if_neg other)).trans mark⟩
  | spend live => exact ⟨Or.inr rfl, mark⟩
  | clear gone => rcases kept with live | spent <;> simp_all
  | retire allowed final => exact absurd allowed notRetired
  | _ => exact ⟨kept, mark⟩

theorem refHandle_eq (e : Edits D R F s t) {h : HandleId} (notRetired : ¬ R h) (notReferred : ¬ F h)
    (start : (s.story h).state = .live ∨ (s.story h).state = .spent) :
    (t.story h).refHandle = (s.story h).refHandle := by
  refine (e.keepsRecord (Q := fun r => (r.state = .live ∨ r.state = .spent) ∧ r.refHandle = (s.story h).refHandle)
    (fun r r' edit kept => ?_) ⟨start, rfl⟩).2
  obtain ⟨kept, ref⟩ := kept
  cases edit with
  | spend live => exact ⟨Or.inr rfl, ref⟩
  | clear gone => rcases kept with live | spent <;> simp_all
  | retire allowed final => exact absurd allowed notRetired
  | refer allowed x => exact absurd allowed notReferred
  | _ => exact ⟨kept, ref⟩

theorem generation_eq (e : Edits D R F s t) (h : HandleId) : (t.story h).generation = (s.story h).generation := by
  refine e.keepsRecord (Q := fun r => r.generation = (s.story h).generation) (fun r r' edit kept => ?_) rfl
  cases edit <;> exact kept

/-- A HELD story that is not retired stays HELD for its minute. -/
theorem held_eq (e : Edits D R F s t) {h : HandleId} (notRetired : ¬ R h) (start : (s.story h).state = .held) :
    (t.story h).state = .held ∧ (t.story h).embargo = (s.story h).embargo := by
  refine e.keepsRecord (Q := fun r => r.state = .held ∧ r.embargo = (s.story h).embargo) (fun r r' edit kept => ?_)
    ⟨start, rfl⟩
  obtain ⟨held, embargo⟩ := kept
  cases edit with
  | spend live => simp_all
  | clear gone => simp_all
  | retire allowed final => exact absurd allowed notRetired
  | _ => exact ⟨held, embargo⟩

/-- A story not HELD for a minute does not become so. -/
theorem not_held_for (e : Edits D R F s t) {h : HandleId} {m : Nat}
    (start : ¬ ((s.story h).state = .held ∧ (s.story h).embargo = some m)) :
    ¬ ((t.story h).state = .held ∧ (t.story h).embargo = some m) := by
  refine e.keepsRecord (Q := fun r => ¬ (r.state = .held ∧ r.embargo = some m)) (fun r r' edit kept => ?_) start
  cases edit with
  | spend live => exact fun both => nomatch both.1
  | clear gone => exact fun both => nomatch both.1
  | retire allowed final => rcases final with rfl | rfl | rfl <;> exact fun both => nomatch both.1
  | _ => exact kept

/-- A retired story is so until its record is cleared. -/
theorem gone_or_free (e : Edits D R F s t) {h : HandleId} (notRetired : ¬ R h) {st : StoryState}
    (final : st = .killed ∨ st = .superseded) (start : (s.story h).state = st ∨ (s.story h).state = .free) :
    (t.story h).state = st ∨ (t.story h).state = .free := by
  refine e.keepsRecord (Q := fun r => r.state = st ∨ r.state = .free) (fun r r' edit kept => ?_) start
  cases edit with
  | spend live => rcases final with rfl | rfl <;> rcases kept with kept | kept <;> simp_all
  | clear gone => exact Or.inr rfl
  | retire allowed final => exact absurd allowed notRetired
  | _ => exact kept

end Edits

end Sys2Proof.Machine
end

section
/-!
PROOFS. The flag and room tests (R52, R94), the restore of a trunk's desks (R125, R186) and the expiry of the link and limit
timers (R158, R180, R184).
-/

namespace Sys2Proof.Machine

open Sys2Proof.Claims

/-! ### The flag and room tests -/

theorem stories_testReserve (s : State) (w : WindowId) : (s.testReserve w).stories = s.stories := by
  unfold State.testReserve
  split
  · split
    · rfl
    · rw [reportPlain_eq, report_stories, onWindow_stories]
  · rfl

theorem stories_foldl {β : Type} {f : State → β → State} (each : ∀ s b, (f s b).stories = s.stories) (l : List β)
    (s : State) : (l.foldl f s).stories = s.stories := by
  induction l generalizing s with
  | nil => rfl
  | cons b l ih => rw [List.foldl_cons, ih, each]

@[simp] theorem stories_testRooms (s : State) : s.testRooms.stories = s.stories := by
  have ring : ∀ t : State, t.testRingHold.stories = t.stories := fun t => by
    unfold State.testRingHold
    split
    · split <;> rfl
    · rfl
  exact (ring _).trans (stories_foldl stories_testReserve _ s)

@[simp] theorem stories_testFlags (s : State) : s.testFlags.stories = s.stories := by
  unfold State.testFlags
  exact stories_foldl (fun s d => onDesk_stories s d _) allDesks s

theorem story_of_stories {s t : State} (same : t.stories = s.stories) (h : HandleId) : t.story h = s.story h := by
  unfold State.story
  rw [same]

@[simp] theorem story_testRooms (s : State) (h : HandleId) : s.testRooms.story h = s.story h :=
  story_of_stories (stories_testRooms s) h

@[simp] theorem story_testFlags (s : State) (h : HandleId) : s.testFlags.story h = s.story h :=
  story_of_stories (stories_testFlags s) h

@[simp] theorem desk_testRooms (s : State) (d : DeskId) : s.testRooms.desk d = s.desk d :=
  Edits.desk_eq (D := fun _ => False) (R := noStory) (F := noStory) (Edits.refl s).testRooms id

/-- The conditions of R94 are read from the desk, the flag apart, and from the stories. -/
theorem flashDue_congr {s t : State} {d : DeskId} (stories : t.stories = s.stories) {b : Bool}
    (desk : t.desk d = { s.desk d with preempt := b }) : t.flashDue d = s.flashDue d := by
  have breaks : t.breakable = s.breakable := funext fun c => by
    unfold State.breakable
    rw [story_of_stories stories]
  unfold State.flashDue
  rw [desk, breaks]

theorem desk_foldl_testFlag (l : List DeskId) (s : State) (d : DeskId) :
    (l.foldl State.testFlag s).desk d = if d ∈ l then { s.desk d with preempt := s.flashDue d } else s.desk d := by
  induction l generalizing s with
  | nil => rfl
  | cons e l ih =>
    rw [List.foldl_cons, ih]
    by_cases here : e = d
    · subst here
      have tested : (s.testFlag e).desk e = { s.desk e with preempt := s.flashDue e } := by simp [State.testFlag]
      rw [flashDue_congr (s := s) (t := s.testFlag e) rfl tested, tested, if_pos List.mem_cons_self]
      exact ite_self _
    · have untouched : (s.testFlag e).desk d = s.desk d := by simp [State.testFlag, here]
      have same : (s.testFlag e).flashDue d = s.flashDue d := flashDue_congr rfl (b := (s.desk d).preempt) untouched
      simp [untouched, same, Ne.symm here]

theorem desk_testFlags (s : State) (d : DeskId) :
    s.testFlags.desk d = { s.desk d with preempt := s.flashDue d } :=
  (desk_foldl_testFlag _ s d).trans (if_pos (List.mem_finRange d))

/-- After the tests the preempt flag of each desk stands exactly when the conditions of R94 do. -/
theorem preempt_after_tests (s : State) (d : DeskId) :
    (s.testFlags.testRooms.desk d).preempt = true ↔ FlashWaits s.testFlags.testRooms d := by
  have tested : s.testFlags.testRooms.desk d = { s.desk d with preempt := s.flashDue d } :=
    (desk_testRooms _ d).trans (desk_testFlags s d)
  have same : s.testFlags.testRooms.flashDue d = s.flashDue d :=
    flashDue_congr ((stories_testRooms _).trans (stories_testFlags s)) tested
  rw [← flashDue_eq_true_iff, same, tested]

/-! ### The restore of a trunk's desks (R125, R186) -/

theorem restart_eq (c : SendContext) : c.restart = restartOf c := by
  unfold SendContext.restart restartOf
  cases c.segment <;> rfl

theorem moveBack_eq (c : SendContext) :
    c.moveBack = { c with cursor := if c.segment = .text then c.lineStart else c.cursor } := by
  cases c with
  | mk handle kind segment layout openingDone cursor lineStart columnLimit feedLines underrunLatch => cases segment <;> rfl

/-- A desk whose line has come back, emptied for its restore. -/
def emptied (s : State) (k : Desk) : Desk :=
  { k with
    line := false, buffer := [⟨s.codeCr, false⟩, ⟨s.codeLf, false⟩], column := 0, epoch := k.epoch + 1
    staging0 := .empty, staging1 := .empty }

theorem lineReturns_off {s : State} {d : DeskId} (line : (s.desk d).line = false) : s.lineReturns d = s := by
  unfold State.lineReturns
  exact if_neg (by rw [line]; exact Bool.false_ne_true)

theorem lineReturns_empty {s : State} {d : DeskId} (line : (s.desk d).line = true) (context : (s.desk d).context = none) :
    s.lineReturns d = s.onDesk d fun k => { k with line := false } := by
  unfold State.lineReturns
  dsimp only
  rw [if_pos line, desk_onDesk, if_pos rfl, context]

theorem lineReturns_item {s : State} {d : DeskId} {c : SendContext} (line : (s.desk d).line = true)
    (context : (s.desk d).context = some c) :
    s.lineReturns d = ((s.onDesk d (emptied s)).beginNext d
      { c with cursor := if c.segment = .text then c.lineStart else c.cursor }
      (.notice .restored c.handle (restartOf c))).settleEnded d c.handle := by
  unfold State.lineReturns State.restoreItem
  dsimp only
  rw [if_pos line, desk_onDesk, if_pos rfl, context]
  dsimp only
  rw [onDesk_onDesk, appendCodes_untagged, moveBack_eq, restart_eq]
  rfl

theorem restored_lineReturns (s : State) (d : DeskId) : Restored d s (s.lineReturns d) := by
  unfold Restored
  cases line : (s.desk d).line with
  | false => exact lineReturns_off line
  | true =>
    cases context : (s.desk d).context with
    | none => exact lineReturns_empty line context
    | some c =>
      refine ⟨s.onDesk d (emptied s), rfl, fun y on => ?_, fun ends => ?_⟩
      · rw [lineReturns_item line context, beginNext_settled_goesOn on]
      · rw [lineReturns_item line context]
        exact beginNext_settled_endsAt
          (c := { c with cursor := if c.segment = .text then c.lineStart else c.cursor }) ends

theorem restoredAll_foldl (l : List DeskId) (s : State) : RestoredAll l s (l.foldl (fun s d => s.lineReturns d) s) := by
  induction l generalizing s with
  | nil => rfl
  | cons d l ih => exact ⟨_, restored_lineReturns s d, ih _⟩

theorem desksInOrder_eq (s : State) (u : TrunkId) : desksInOrder s u = s.trunkDesks u := by
  unfold desksInOrder State.trunkDesks Setup.slots
  rw [List.filterMap_map]
  rfl

theorem restoredAll_desksRegainLine {s entered : State} (setup : entered.setup = s.setup) (u : TrunkId) :
    RestoredAll (desksInOrder s u) entered (entered.desksRegainLine u) := by
  have same : entered.trunkDesks u = s.trunkDesks u := by
    unfold State.trunkDesks State.slotDesk State.slotNumber
    rw [setup]
  rw [desksInOrder_eq, ← same]
  exact restoredAll_foldl _ entered

theorem desksRegainLine_edits (s : State) (u : TrunkId) :
    Edits everyDesk noStory noStory s (s.desksRegainLine u) :=
  Edits.foldl (fun s _ => (Edits.refl s).lineReturns trivial) _ (Edits.refl s)

theorem trunk_of_onlyStories {s t : State} (only : OnlyStories s t) (u : TrunkId) : t.trunk u = s.trunk u := by
  rw [only]
  rfl

/-! ### The timers (R180, R184) -/

theorem linkExpiry_idle {s : State} {u : TrunkId}
    (idle : (s.trunk u).bringUp.state ≠ .settle ∨ (s.trunk u).bringUp.linkTimer = none) : s.linkExpiry u = s := by
  unfold State.linkExpiry
  refine if_neg fun both => ?_
  rcases idle with state | timer
  · exact state both.1
  · rw [timer] at both
    cases both.2

theorem linkExpiry_due {s : State} {u : TrunkId} (state : (s.trunk u).bringUp.state = .settle)
    (timer : (s.trunk u).bringUp.linkTimer ≠ none) : s.linkExpiry u = ((s.enterUp u).testFlags).testRooms := by
  unfold State.linkExpiry
  exact if_pos ⟨state, Option.isSome_iff_ne_none.mpr timer⟩

/-- The entry to UP, from the state in which TRUNK_UP has been reported. -/
theorem enterUp_eq {s entered : State} {u : TrunkId}
    (isEntered : entered = (s.onTrunk u fun k =>
      { k with bringUp := { k.bringUp with state := .up, linkTimer := none, limitTimer := none } }).report
      (plain s .trunkUp (byte u.val)
        [(s.trunk u).bringUp.stationByte, byte (s.slotCount u), byte (s.rateClass u)])) :
    s.enterUp u =
      if ((entered.desksRegainLine u).trunk u).receiver.alignment = .framed then
        (entered.desksRegainLine u).onReceiver u fun r => { r with alignment := .data, switchWindow := 8 }
      else (entered.desksRegainLine u).loseTrunk u 1 := by
  have station : ((s.onBringUp u fun b => { b with state := .up, linkTimer := none, limitTimer := none }).trunk
      u).bringUp.stationByte = (s.trunk u).bringUp.stationByte := by
    rw [trunk_onBringUp, if_pos rfl]
    rfl
  have same : entered = (s.onBringUp u fun b => { b with state := .up, linkTimer := none, limitTimer := none }).reportPlain
      .trunkUp (byteOf u.val)
      [((s.onBringUp u fun b => { b with state := .up, linkTimer := none, limitTimer := none }).trunk
        u).bringUp.stationByte, byteOf (s.slotCount u), byteOf (s.rateClass u)] := by
    rw [isEntered, station]
    rfl
  rw [same]
  rfl

theorem limitExpiry_stopped {s : State} {u : TrunkId} (timer : (s.trunk u).bringUp.limitTimer = none) :
    s.limitExpiry u = s := by
  unfold State.limitExpiry
  rw [timer]

theorem limitExpiry_running {s : State} {u : TrunkId} (timer : (s.trunk u).bringUp.limitTimer ≠ none) :
    s.limitExpiry u = (s.onBringUp u fun b => { b with limitTimer := some 0 }).report
      (plain s .trunkStalled (byte u.val) [byte (s.trunk u).bringUp.state.code,
        byte (((s.trunk u).bringUp.page.map MapPage.index).getD 0), (s.trunk u).bringUp.stationByte]) := by
  unfold State.limitExpiry
  cases running : (s.trunk u).bringUp.limitTimer with
  | none => exact absurd running timer
  | some n => exact report_onBringUp _ _ _ _

/-- Settles O56: the entry to UP and its desks in order, and the two timers. -/
theorem linkAndLimitTimersExpire : Obligations.LinkAndLimitTimersExpire := by
  intro s u x station state isStation
  have stationIs : station = (s.trunk u).bringUp.stationByte := by
    rw [isStation]
    unfold BringUp.stationByte
    cases (s.trunk u).bringUp.farStation <;> rfl
  refine ⟨fun idle => congrArg Host.Outcome.next (linkExpiry_idle (state ▸ idle)), fun entered settle timer isEntered => ?_,
    fun timer => congrArg Host.Outcome.next (limitExpiry_stopped timer), fun timer => ?_⟩
  · rw [stationIs] at isEntered
    have setup : entered.setup = s.setup := by rw [isEntered, report_setup, onTrunk_setup]
    have trunk : (entered.desksRegainLine u).trunk u =
        { s.trunk u with
          bringUp := { (s.trunk u).bringUp with state := .up, linkTimer := none, limitTimer := none } } := by
      rw [trunk_of_onlyStories (desksRegainLine_edits entered u).onlyStories, isEntered, trunk_report, trunk_onTrunk,
        if_pos rfl]
    have due : exec (.linkTimerExpiry u) s = .next ((s.enterUp u).testFlags.testRooms) :=
      congrArg Host.Outcome.next (linkExpiry_due (state.trans settle) timer)
    refine ⟨fun framed => ⟨_, _, restoredAll_desksRegainLine setup u, due, ?_, preempt_after_tests _⟩,
      fun unframed whole => ⟨_, _, restoredAll_desksRegainLine setup u, due, ?_⟩⟩
    · rw [enterUp_eq isEntered, if_pos (by rw [trunk]; exact framed)]
    · rw [enterUp_eq isEntered, if_neg (by rw [trunk]; exact unframed)]
      have lost := lostFrom_loseTrunk (s := entered.desksRegainLine u) (u := u) (f := id) 1 (by rw [trunk])
        (by rw [trunk]; exact whole) rfl
      rw [onReceiver_self rfl, trunk] at lost
      exact lost
  · rw [stationIs, ← state]
    exact congrArg Host.Outcome.next (limitExpiry_running timer)

end Sys2Proof.Machine
end

section
/-!
PROOFS. The desk queues: insertion by class, refusal and displacement (R87 to R89).
-/

namespace Sys2Proof.Machine

open Sys2Proof.Claims

theorem atLeast_eq_true_iff (a b : StoryClass) : a.atLeast b = true ↔ a.code ≤ b.code := decide_eq_true_iff

/-- The entry stands directly behind the last one of equal or higher class. -/
theorem placed_placeEntry (e : DeskEntry) (q : List DeskEntry) : Placed e q (placeEntry e q) := by
  induction q with
  | nil => exact ⟨[], [], rfl, rfl, nofun, nofun⟩
  | cons x rest ih =>
    unfold placeEntry
    by_cases behind : ((x :: rest).any fun y => y.cls.atLeast e.cls) = true
    · rw [if_pos behind]
      obtain ⟨front, back, split, place, lower, last⟩ := ih
      refine ⟨x :: front, back, by rw [split, List.cons_append], by rw [place, List.cons_append], lower, fun y isLast => ?_⟩
      cases front with
      | nil =>
        obtain rfl : x = y := by simpa using isLast
        obtain ⟨z, member, higher⟩ := List.any_eq_true.mp behind
        have higher := (atLeast_eq_true_iff _ _).mp higher
        rcases List.mem_cons.mp member with rfl | member
        · exact higher
        · rw [split] at member
          have := lower z member
          omega
      | cons f front => exact last y (by simpa using isLast)
    · rw [if_neg behind]
      refine ⟨[], x :: rest, rfl, rfl, fun y member => ?_, nofun⟩
      refine Nat.lt_of_not_le fun higher => behind ?_
      exact List.any_eq_true.mpr ⟨y, member, (atLeast_eq_true_iff _ _).mpr higher⟩

theorem dropMark_story (s : State) (d : DeskId) {e : DeskEntry} (kind : e.kind = .story) :
    s.dropMark d e = s.setMark e.handle d .dropped := by
  unfold State.dropMark
  rw [kind]

theorem dropMark_killNotice (s : State) (d : DeskId) {e : DeskEntry} (kind : e.kind = .killNotice) :
    s.dropMark d e = s := by
  unfold State.dropMark
  rw [kind]

theorem SameText.dropMark {s t : State} (same : SameText s t) (d : DeskId) (e : DeskEntry) :
    SameText s (t.dropMark d e) := by
  cases kind : e.kind with
  | story =>
    rw [dropMark_story t d kind]
    exact same.setMark e.handle d .dropped
  | killNotice =>
    rw [dropMark_killNotice t d kind]
    exact same

/-- An entry that joins: the queue, the holder, and a STORY entry's mark. -/
theorem joinQueue_story {s : State} {d : DeskId} {older : List DeskEntry} (queue : (s.desk d).queue = older)
    {e : DeskEntry} (kind : e.kind = .story) :
    s.joinQueue d e = ((s.onDesk d fun k => { k with queue := placeEntry e older }).onStory e.handle
      fun r => { r with holders := r.holders + 1 }).setMark e.handle d .queued := by
  subst queue
  unfold State.joinQueue
  dsimp only
  rw [kind]
  rfl

theorem joinQueue_killNotice {s : State} {d : DeskId} {older : List DeskEntry} (queue : (s.desk d).queue = older)
    {e : DeskEntry} (kind : e.kind = .killNotice) :
    s.joinQueue d e = (s.onDesk d fun k => { k with queue := placeEntry e older }).onStory e.handle
      fun r => { r with holders := r.holders + 1 } := by
  subst queue
  unfold State.joinQueue
  dsimp only
  rw [kind]
  rfl

theorem insertEntry_of_room {s : State} {d : DeskId} (room : (s.desk d).queue.length < 32) (e : DeskEntry) :
    s.insertEntry d e = s.joinQueue d e := by
  unfold State.insertEntry
  exact if_pos room

theorem insertEntry_refused {s : State} {d : DeskId} {e tail : DeskEntry} {older : List DeskEntry}
    (full : 32 ≤ (s.desk d).queue.length) (queue : (s.desk d).queue = older ++ [tail])
    (low : tail.cls.code ≤ e.cls.code) :
    s.insertEntry d e = (s.dropMark d e).report
      (naming s .deskDrop (byte (d.val + 1)) e.handle [byte e.kind.code, byte e.cls.code, 2, 0xFF]) := by
  unfold State.insertEntry
  rw [if_neg (c := (s.desk d).queue.length < queueLimit) (Nat.not_lt.mpr full), queue, List.getLast?_concat]
  dsimp only
  rw [if_pos ((atLeast_eq_true_iff _ _).mpr low)]
  unfold State.reportDrop
  have clock : (s.dropMark d e).clock = s.clock := by
    unfold State.dropMark
    split <;> rfl
  rw [reportStory_eq, naming_congr ((SameText.refl s).dropMark d e) clock]
  rfl

theorem insertEntry_displaces {s : State} {d : DeskId} {e tail : DeskEntry} {older : List DeskEntry}
    (full : 32 ≤ (s.desk d).queue.length) (queue : (s.desk d).queue = older ++ [tail])
    (high : e.cls.code < tail.cls.code) :
    s.insertEntry d e = (s.displaceTail d tail e.handle).joinQueue d e := by
  unfold State.insertEntry
  rw [if_neg (c := (s.desk d).queue.length < queueLimit) (Nat.not_lt.mpr full), queue, List.getLast?_concat]
  dsimp only
  rw [if_neg (mt (atLeast_eq_true_iff _ _).mp (Nat.not_le.mpr high))]

theorem displaceTail_eq {s gone : State} {d : DeskId} {tail : DeskEntry} {older : List DeskEntry} (by_ : HandleId)
    (queue : (s.desk d).queue = older ++ [tail])
    (isGone : gone = (s.onDesk d fun k => { k with queue := older }).onStory tail.handle
      fun r => { r with holders := r.holders - 1 }) :
    s.displaceTail d tail by_ = settled ((gone.dropMark d tail).report (naming s .deskDrop (byte (d.val + 1)) tail.handle
      [byte tail.kind.code, byte tail.cls.code, 1, byte by_.val])) tail.handle := by
  have shorter : (s.onDesk d fun k => { k with queue := k.queue.dropLast }) = s.onDesk d fun k => { k with queue := older } :=
    onDesk_congr _ (by rw [queue, List.dropLast_concat])
  have same : SameText s (gone.dropMark d tail) := by
    rw [isGone]
    exact (((SameText.refl s).onDesk d _).releaseHolder tail.handle).dropMark d tail
  have clock : (gone.dropMark d tail).clock = s.clock := by
    rw [isGone]
    unfold State.dropMark
    split <;> rfl
  unfold State.displaceTail State.reportDrop
  dsimp only
  rw [settleStory_eq, shorter, reportStory_eq, State.releaseHolder, ← isGone, naming_congr same clock]
  rfl

/-- Settles O44: with room, refused, and displacing the tail. -/
theorem queueInsertionByClass : Obligations.QueueInsertionByClass := by
  intro s d e
  refine ⟨fun room => ⟨_, _, placed_placeEntry e _, rfl, fun kind => ?_, fun kind => ?_⟩,
    fun older tail full queue => ⟨fun low => ⟨s.dropMark d e, insertEntry_refused full queue low, dropMark_story s d,
      dropMark_killNotice s d⟩, fun high => ?_⟩⟩
  · exact (insertEntry_of_room room e).trans (joinQueue_story rfl kind)
  · exact (insertEntry_of_room room e).trans (joinQueue_killNotice rfl kind)
  · have displaced := displaceTail_eq (s := s) (d := d) (tail := tail) e.handle queue rfl
    have left : ((s.displaceTail d tail e.handle).desk d).queue = older := by
      rw [desk_displaceTail, queue, List.dropLast_concat]
    refine ⟨_, _, _, _, _, placed_placeEntry e older, rfl, dropMark_story _ d, dropMark_killNotice _ d, displaced, rfl,
      fun kind => ?_, fun kind => ?_⟩
    · rw [insertEntry_displaces full queue high, joinQueue_story left kind]
    · rw [insertEntry_displaces full queue high, joinQueue_killNotice left kind]

end Sys2Proof.Machine
end

section
/-!
PROOFS. The placement of a story as NEW, desk by desk, and its release (R67, R69, R78).
-/

namespace Sys2Proof.Machine

open Sys2Proof.Claims

/-! ### One desk after another -/

/-- The desks before and behind one of the 24. -/
theorem allDesks_split (d : DeskId) : ∃ before after, allDesks = before ++ d :: after ∧ d ∉ before ∧ d ∉ after := by
  obtain ⟨before, after, split⟩ := List.append_of_mem (List.mem_finRange d)
  have nodup : (before ++ d :: after).Nodup := split ▸ List.nodup_finRange 24
  have parts := List.nodup_append.mp nodup
  exact ⟨before, after, split, fun mem => parts.2.2 d mem d List.mem_cons_self rfl, (List.nodup_cons.mp parts.2.1).1⟩

/-- What is done at each desk of a list does not touch a desk outside it. -/
theorem Edits.foldl_desks {R F : HandleId → Prop} {f : State → DeskId → State}
    (each : ∀ s d, Edits (fun x => x = d) R F s (f s d)) {d : DeskId} {l : List DeskId} (outside : d ∉ l) (s : State) :
    Edits (fun x => x ≠ d) R F s (l.foldl f s) := by
  induction l generalizing s with
  | nil => exact Edits.refl s
  | cons e l ih =>
    have other : e ≠ d := fun same => outside (same ▸ List.mem_cons_self)
    exact ((each s e).mono (fun x here => here ▸ other) (fun _ => id) fun _ => id).trans
      (ih (fun mem => outside (List.mem_cons_of_mem _ mem)) _)

/-! ### The desks of a story placed as NEW (R69) -/

theorem names_eq_true_iff (selector : Selector) (d : DeskId) :
    selector.names d = true ↔ selector = .all ∨ ∃ set, selector = .desks set ∧ d ∈ set := by
  cases selector with
  | all => simp [Selector.names]
  | desks set => simp [Selector.names]

theorem keeps_iff (s : State) (h : HandleId) (d : DeskId) :
    ((s.story h).selector.names d && s.desksKeep h d) = true ↔ Keeps s h d := by
  unfold State.desksKeep Keeps
  rw [Bool.and_eq_true, names_eq_true_iff]
  simp [and_assoc]

/-- A desk is kept by the text of the story, the setup and the desk's own state. -/
theorem keeps_congr {s t : State} {h : HandleId} {d : DeskId} (same : SameText s t)
    (open_ : (t.desk d).isOpen = (s.desk d).isOpen) : Keeps t h d ↔ Keeps s h d := by
  obtain ⟨setup, story⟩ := same
  obtain ⟨holders, marks, story⟩ := story h
  unfold Keeps State.classRefused State.agencyRefused
  rw [story, setup, open_]

theorem placeNewAt_kept {s : State} {h : HandleId} {d : DeskId} (kept : Keeps s h d) :
    s.placeNewAt h d = s.insertEntry d (entryOf s h) := by
  unfold State.placeNewAt
  exact if_pos ((keeps_iff s h d).mpr kept)

theorem placeNewAt_other {s : State} {h : HandleId} {d : DeskId} (other : ¬ Keeps s h d) : s.placeNewAt h d = s := by
  unfold State.placeNewAt
  exact if_neg (mt (keeps_iff s h d).mp other)

theorem placeNewAt_edits {R F : HandleId → Prop} (h : HandleId) (s : State) (d : DeskId) :
    Edits (fun x => x = d) R F s (s.placeNewAt h d) := (Edits.refl s).placeNewAt h rfl

theorem SameText.joinQueue {s t : State} (same : SameText s t) (d : DeskId) (e : DeskEntry) :
    SameText s (t.joinQueue d e) := by
  cases kind : e.kind with
  | story =>
    rw [joinQueue_story rfl kind]
    exact ((same.onDesk d _).addHolder e.handle).setMark e.handle d .queued
  | killNotice =>
    rw [joinQueue_killNotice rfl kind]
    exact (same.onDesk d _).addHolder e.handle

theorem placeNewAt_sameText {s : State} {d : DeskId} (room : (s.desk d).queue.length < 32) (h : HandleId) :
    SameText s (s.placeNewAt h d) := by
  by_cases kept : Keeps s h d
  · rw [placeNewAt_kept kept, insertEntry_of_room room]
    exact (SameText.refl s).joinQueue d _
  · rw [placeNewAt_other kept]
    exact SameText.refl s

/-- Where no queue is full, a placement as NEW changes holders, marks and queues alone. -/
theorem placeNew_sameText {l : List DeskId} (nodup : l.Nodup) {s : State}
    (room : ∀ d ∈ l, (s.desk d).queue.length < 32) (h : HandleId) :
    SameText s (l.foldl (fun s d => s.placeNewAt h d) s) := by
  induction l generalizing s with
  | nil => exact SameText.refl s
  | cons d l ih =>
    obtain ⟨outside, nodup⟩ := List.nodup_cons.mp nodup
    refine (placeNewAt_sameText (room d List.mem_cons_self) h).trans (ih nodup fun e mem => ?_)
    have other : e ≠ d := fun same => outside (same ▸ mem)
    rw [(placeNewAt_edits (R := noStory) (F := noStory) h s d).desk_eq other]
    exact room e (List.mem_cons_of_mem _ mem)

/-- What a placement as NEW does at one desk, where no queue is full. -/
theorem placeNew_at {s : State} (room : ∀ d, (s.desk d).queue.length < 32) (h : HandleId) (d : DeskId) :
    ∃ u, SameText s u ∧ u.desk d = s.desk d ∧
      Edits (fun x => x ≠ d) noStory noStory s u ∧
      Edits (fun x => x ≠ d) noStory noStory (u.placeNewAt h d) (s.placeNew h) := by
  obtain ⟨before, after, split, notBefore, notAfter⟩ := allDesks_split d
  have nodup : (before ++ d :: after).Nodup := split ▸ (show allDesks.Nodup from List.nodup_finRange 24)
  have first := Edits.foldl_desks (placeNewAt_edits (R := noStory) (F := noStory) h) notBefore s
  refine ⟨_, placeNew_sameText (List.nodup_append.mp nodup).1 (fun d _ => room d) h, first.desk_eq fun ne => ne rfl, first, ?_⟩
  unfold State.placeNew
  rw [split, List.foldl_append, List.foldl_cons]
  exact Edits.foldl_desks (placeNewAt_edits h) notAfter _

/-- A kept desk takes the story's entry by its class, any other desk stands. -/
theorem placeNew_desk {s : State} (room : ∀ d, (s.desk d).queue.length < 32) (h : HandleId) (d : DeskId) :
    (Keeps s h d → (s.placeNew h).desk d = { s.desk d with queue := placeEntry (entryOf s h) (s.desk d).queue }) ∧
    (¬ Keeps s h d → (s.placeNew h).desk d = s.desk d) := by
  obtain ⟨u, same, desk, before, after⟩ := placeNew_at room h d
  have later := after.desk_eq (d := d) fun ne => ne rfl
  have open_ : (u.desk d).isOpen = (s.desk d).isOpen := by rw [desk]
  have entry : entryOf u h = entryOf s h := by
    obtain ⟨holders, marks, story⟩ := same.2 h
    unfold entryOf
    rw [story]
  refine ⟨fun kept => ?_, fun other => ?_⟩
  · rw [later, placeNewAt_kept ((keeps_congr same open_).mpr kept), insertEntry_of_room (by rw [desk]; exact room d), entry,
      joinQueue_story (e := entryOf s h) rfl rfl, desk]
    simp [State.setMark, desk]
  · rw [later, placeNewAt_other (mt (keeps_congr same open_).mp other), desk]

/-- A LIVE story's marks after its placement as NEW. -/
theorem placeNew_mark {s : State} (room : ∀ d, (s.desk d).queue.length < 32) {h : HandleId}
    (live : (s.story h).state = .live) (d : DeskId) :
    (Keeps s h d → (s.placeNew h).markAt h d = .queued) ∧
    (¬ Keeps s h d → (s.placeNew h).markAt h d = s.markAt h d) := by
  obtain ⟨u, same, desk, before, after⟩ := placeNew_at room h d
  have open_ : (u.desk d).isOpen = (s.desk d).isOpen := by rw [desk]
  have untouched : ¬ d ≠ d := fun ne => ne rfl
  have state : ((u.placeNewAt h d).story h).state = .live ∨ ((u.placeNewAt h d).story h).state = .spent :=
    (placeNewAt_edits (R := noStory) (F := noStory) h u d).live_or_spent id (before.live_or_spent id (Or.inl live))
  have later := after.mark_eq id state untouched
  refine ⟨fun kept => ?_, fun other => ?_⟩
  · rw [later, placeNewAt_kept ((keeps_congr same open_).mpr kept), insertEntry_of_room (by rw [desk]; exact room d),
      joinQueue_story (e := entryOf u h) rfl rfl]
    exact markAt_setMark _ h d .queued
  · rw [later, placeNewAt_other (mt (keeps_congr same open_).mp other)]
    exact before.mark_eq id (Or.inl live) untouched

/-! ### The release of a story of mode NEW (R67, R78) -/

theorem releaseStory_new {s : State} {h : HandleId} (mode : (s.story h).mode = .new) :
    s.releaseStory h = settled (((s.setStoryState h .live).placeNew h).reportPlaced h none) h := by
  have mode' : ((s.setStoryState h .live).story h).mode = .new := by
    unfold State.setStoryState
    rw [story_onStory, if_pos rfl]
    exact mode
  unfold State.releaseStory State.targetAtRelease State.placeReleased
  dsimp only
  rw [settleStory_eq, mode', if_pos rfl]
  rfl

theorem marked_eq_zero_iff (s : State) (h : HandleId) (m : Mark) : marked s h m = 0 ↔ ∀ d, s.markAt h d ≠ m := by
  unfold marked
  rw [List.countP_eq_zero]
  simp

/-- A story that the story table settles is SPENT at once, is FREE, or stands. -/
theorem state_settled_of_spends {s : State} {h : HandleId} (spends : Spends s h) :
    ((settled s h).story h).state = .spent := by
  rw [settled_of_spends spends, story_report]
  have same : (offWindow (s.onStory h fun r => { r with state := .spent }) h).story h =
      (s.onStory h fun r => { r with state := .spent }).story h := rfl
  rw [same, story_onStory, if_pos rfl]

theorem placeNew_of_none {s : State} {h : HandleId} (none : ∀ d, ¬ Keeps s h d) : s.placeNew h = s := by
  have each : ∀ l : List DeskId, l.foldl (fun s d => s.placeNewAt h d) s = s := fun l => by
    induction l with
    | nil => rfl
    | cons d l ih => rw [List.foldl_cons, placeNewAt_other (none d), ih]
  exact each allDesks

/-- Settles O45: the placement at each desk, and what the marks then make of the story. -/
theorem newStoryPlacedAtKeptDesks : Obligations.NewStoryPlacedAtKeptDesks := by
  intro s h kept mode room isKept
  have made : (s.setStoryState h .live).story h = { s.story h with state := .live } := by
    unfold State.setStoryState
    rw [story_onStory, if_pos rfl]
  have keeps : ∀ d, kept d ↔ Keeps (s.setStoryState h .live) h d := fun d => by
    rw [isKept]
    unfold Keeps
    rw [made]
    rfl
  have entry : entryOf (s.setStoryState h .live) h = { handle := h, kind := .story, cls := (s.story h).cls } := by
    unfold entryOf
    rw [made]
  have live : ((s.setStoryState h .live).story h).state = .live := by rw [made]
  have rest : Edits (fun _ => False) noStory noStory ((s.setStoryState h .live).placeNew h) (s.releaseStory h) := by
    rw [releaseStory_new mode, ← settleStory_eq]
    exact ((Edits.refl _).reportStory _ _ _ _).settleStory h
  have placedLive : (((s.setStoryState h .live).placeNew h).story h).state = .live := by
    obtain ⟨holders, marks, story⟩ := (placeNew_sameText (s := s.setStoryState h .live) (List.nodup_finRange 24)
      (fun d _ => room d) h).2 h
    exact (congrArg Story.state story).trans live
  have desk := fun d => rest.desk_eq (d := d) id
  have mark := fun d => rest.mark_eq (h := h) id (Or.inl placedLive) (d := d) id
  have placed := placeNew_desk (s := s.setStoryState h .live) room h
  have marked := placeNew_mark (s := s.setStoryState h .live) room live
  refine ⟨fun d isIn => ⟨?_, ?_⟩, fun d isOut => ⟨?_, ?_⟩, fun ⟨d, isIn⟩ => ?_, fun noDesk absent holders => ?_⟩
  · rw [desk, (placed d).1 ((keeps d).mp isIn), entry]
    exact placed_placeEntry _ _
  · rw [mark, (marked d).1 ((keeps d).mp isIn)]
  · rw [desk, (placed d).2 (mt (keeps d).mpr isOut)]
    rfl
  · rw [mark, (marked d).2 (mt (keeps d).mpr isOut)]
    unfold State.markAt
    rw [made]
  · rw [releaseStory_new mode, settled_of_stands]
    · rw [State.reportPlaced, reportStory_eq, story_report]
      exact placedLive
    · rintro ⟨-, queued, -⟩
      refine (marked_eq_zero_iff _ h .queued).mp queued d ?_
      unfold State.markAt
      rw [State.reportPlaced, reportStory_eq, story_report]
      exact (marked d).1 ((keeps d).mp isIn)
    · rintro ⟨gone, -⟩
      rw [State.reportPlaced, reportStory_eq, story_report, placedLive] at gone
      rcases gone with gone | gone <;> cases gone
  · have nowhere : (s.setStoryState h .live).placeNew h = s.setStoryState h .live :=
      placeNew_of_none fun d => mt (keeps d).mpr (noDesk d)
    have story : (((s.setStoryState h .live).reportPlaced h none).story h) = { s.story h with state := .live } := by
      rw [State.reportPlaced, reportStory_eq, story_report, made]
    have marks : ∀ m, m ≠ .absent → Claims.marked ((s.setStoryState h .live).reportPlaced h none) h m = 0 := fun m other => by
      refine (marked_eq_zero_iff _ h m).mpr fun d => ?_
      unfold State.markAt
      rw [story]
      exact fun isMark => other (isMark.symm.trans (absent d))
    rw [releaseStory_new mode, nowhere]
    refine state_settled_of_spends ⟨?_, marks .queued nofun, marks .active nofun, ?_⟩
    · rw [story]
    · rw [story]
      exact holders

end Sys2Proof.Machine
end

section
/-!
PROOFS. The release of stories by the host and by the clock (R65 to R68) and the host's KILL of a story (R75, R76, R79).
-/

namespace Sys2Proof.Machine

open Sys2Proof.Claims

theorem onlyStories_testRooms (s : State) : OnlyStories s s.testFlags.testRooms :=
  (Edits.refl (R := noStory) (F := noStory) s).testFlags.testRooms.onlyStories

/-! ### The target of a release (R68) -/

theorem qualifies_iff (s : State) (w t : HandleId) :
    (decide (t ≠ w) && (s.story t).state.isTarget && decide ((s.story t).agency = (s.story w).agency) &&
      decide (some (s.story t).serial = (s.story w).refSerial)) = true ↔ Qualifies s w t := by
  have target : (s.story t).state.isTarget = true ↔
      (s.story t).state = .held ∨ (s.story t).state = .live ∨ (s.story t).state = .spent := by
    cases (s.story t).state <;> decide
  unfold Qualifies
  simp only [Bool.and_eq_true, decide_eq_true_eq, target, and_assoc, eq_comm (a := some (s.story t).serial)]

theorem findTarget_qualifies {s : State} {w t : HandleId} (found : s.findTarget w = some t) : Qualifies s w t :=
  (qualifies_iff s w t).mp (by simpa using List.find?_some found)

theorem targetAtRelease_ne {s : State} {w t : HandleId} (target : s.targetAtRelease w = some t) : t ≠ w := by
  unfold State.targetAtRelease at target
  split at target
  · cases target
  · exact (findTarget_qualifies target).1

/-! ### A release as a path of edits (R67) -/

theorem releaseStory_edits {R F : HandleId → Prop} {s₀ s : State} {h : HandleId}
    (start : Edits everyDesk R F s₀ (s.setStoryState h .live))
    (retired : ∀ t, (s.setStoryState h .live).targetAtRelease h = some t → R t)
    (referred : (s.story h).mode ≠ .new → F h) : Edits everyDesk R F s₀ (s.releaseStory h) := by
  have mode : ((s.setStoryState h .live).story h).mode = (s.story h).mode := by
    unfold State.setStoryState
    rw [story_onStory, if_pos rfl]
  unfold State.releaseStory
  dsimp only
  refine Edits.settleStory ?_ h
  have placed := (start.placeReleased (w := h) (by rw [mode]; exact referred) retired).reportStory .storyPlaced noneByte h
  split
  · exact (placed _).settleStory _
  · exact placed _

/-- A released story is LIVE or SPENT. -/
theorem releaseStory_state (s : State) (h : HandleId) :
    ((s.releaseStory h).story h).state = .live ∨ ((s.releaseStory h).story h).state = .spent := by
  have path := releaseStory_edits (R := fun t => (s.setStoryState h .live).targetAtRelease h = some t)
    (F := fun _ => True) (Edits.refl (s.setStoryState h .live)) (fun _ => id) fun _ => trivial
  refine path.live_or_spent (fun own => targetAtRelease_ne own rfl) (Or.inl ?_)
  unfold State.setStoryState
  rw [story_onStory, if_pos rfl]

theorem releaseStory_onlyStories (s : State) (h : HandleId) : OnlyStories s (s.releaseStory h) :=
  (releaseStory_edits (R := fun _ => True) (F := fun _ => True)
    ((Edits.refl s).step (.retire s trivial (Or.inl rfl))) (fun _ _ => trivial) fun _ => trivial).onlyStories

/-- Settles O31: the two refusals, and the release. -/
theorem releaseOfHeldStory : Obligations.ReleaseOfHeldStory := by
  intro s w more h hd code run handle
  have yes : accepted .release s.mode = true := decide_eq_true run
  refine ⟨fun other => exec_refused (k := .release) hd code yes (withStory_stale s _ handle other), fun same notHeld => ?_,
    fun same held => ⟨?_, ?_, releaseStory_state s h⟩⟩
  · exact exec_refused (k := .release) hd code yes ((withStory_current s _ handle same).trans (if_neg notHeld))
  · exact exec_performed (k := .release) hd code yes ((withStory_current s _ handle same).trans (if_pos held))
  · exact onlyStories_trans (releaseStory_onlyStories s h) (onlyStories_testRooms _)

/-! ### The clock (R66, R194) -/

/-- A story is due at a minute. -/
def Due (m : Nat) (s : State) (h : HandleId) : Prop := (s.story h).state = .held ∧ (s.story h).embargo = some m

theorem releaseFor_due {m : Nat} {s : State} {h : HandleId} (due : Due m s h) :
    releaseFor m s h = (s.report (naming s .embargoRelease (byte (s.story h).window.val) h [])).releaseStory h := if_pos due

theorem releaseFor_other {m : Nat} {s : State} {h : HandleId} (other : ¬ Due m s h) : releaseFor m s h = s := if_neg other

theorem releaseFor_edits (m : Nat) (s : State) (h : HandleId) :
    Edits everyDesk (fun _ => True) (fun _ => True) s (releaseFor m s h) := by
  by_cases due : Due m s h
  · rw [releaseFor_due due]
    exact releaseStory_edits (((Edits.refl s).report _).step (.retire _ trivial (Or.inl rfl))) (fun _ _ => trivial)
      fun _ => trivial
  · rw [releaseFor_other due]
    exact Edits.refl s

/-- A story that was due has been released. -/
theorem releaseFor_state {m : Nat} {s : State} {h : HandleId} (due : Due m s h) :
    ((releaseFor m s h).story h).state = .live ∨ ((releaseFor m s h).story h).state = .spent := by
  rw [releaseFor_due due]
  exact releaseStory_state _ h

theorem not_due_releaseFor (m : Nat) (s : State) (h : HandleId) : ¬ Due m (releaseFor m s h) h := by
  by_cases due : Due m s h
  · rintro ⟨held, -⟩
    rcases releaseFor_state due with state | state <;> rw [state] at held <;> cases held
  · rwa [releaseFor_other due]

/-- None of the stories of the list is due any more. -/
theorem not_due_foldl {m : Nat} {h : HandleId} {l : List HandleId} (mem : h ∈ l) (s : State) :
    ¬ Due m (l.foldl (releaseFor m) s) h := by
  induction l generalizing s with
  | nil => cases mem
  | cons g l ih =>
    rw [List.foldl_cons]
    rcases List.mem_cons.mp mem with rfl | later
    · exact (Edits.foldl (releaseFor_edits m) l (Edits.refl _)).not_held_for (not_due_releaseFor m s h)
    · exact ih later _

/-- A due story of mode NEW retires no story but itself. -/
theorem releaseFor_new {m : Nat} {s : State} {h : HandleId} (new : Due m s h → (s.story h).mode = .new) :
    Edits everyDesk (fun g => g = h ∧ Due m s g) noStory s (releaseFor m s h) := by
  by_cases due : Due m s h
  · rw [releaseFor_due due]
    have mode : ((s.report (naming s .embargoRelease (byte (s.story h).window.val) h [])).story h).mode = .new := by
      rw [story_report]
      exact new due
    refine releaseStory_edits (((Edits.refl s).report _).step (.retire _ ⟨rfl, due⟩ (Or.inl rfl))) (fun t target => ?_)
      fun other => absurd mode other
    unfold State.targetAtRelease State.setStoryState at target
    rw [story_onStory, if_pos rfl, if_pos mode] at target
    cases target
  · rw [releaseFor_other due]
    exact Edits.refl s

/-- Of a HELD story that is neither retired nor given a target, holders and marks alone change. -/
theorem Edits.held_text {D : DeskId → Prop} {R F : HandleId → Prop} {s t : State} (e : Edits D R F s t) {h : HandleId}
    (notRetired : ¬ R h) (notReferred : ¬ F h) (held : (s.story h).state = .held) :
    ∃ holders marks, t.story h = { s.story h with holders := holders, marks := marks } := by
  refine e.keepsRecord (Q := fun r => ∃ holders marks, r = { s.story h with holders := holders, marks := marks })
    (fun r r' edit kept => ?_) ⟨_, _, rfl⟩
  obtain ⟨holders, marks, rfl⟩ := kept
  cases edit with
  | mark touched m => exact ⟨_, _, rfl⟩
  | holders n => exact ⟨_, _, rfl⟩
  | spend live => exact absurd live (by rw [held]; exact nofun)
  | clear gone => exact absurd gone (by rw [held]; rintro (x | x) <;> cases x)
  | retire allowed final => exact absurd allowed notRetired
  | refer allowed x => exact absurd allowed notReferred

/-- The releases of one minute, when every story that is due is of mode NEW. -/
theorem foldl_releaseFor_new {m : Nat} {l : List HandleId} {s : State}
    (new : ∀ h ∈ l, Due m s h → (s.story h).mode = .new) :
    (∀ h ∈ l, Due m s h → ((l.foldl (releaseFor m) s).story h).state = .live ∨
      ((l.foldl (releaseFor m) s).story h).state = .spent) ∧
    (∀ h, (s.story h).state = .live ∨ (s.story h).state = .spent → ((l.foldl (releaseFor m) s).story h).state = .live ∨
      ((l.foldl (releaseFor m) s).story h).state = .spent) ∧
    ∀ h, (s.story h).state = .held → ¬ Due m s h → ((l.foldl (releaseFor m) s).story h).state = .held ∧
      ((l.foldl (releaseFor m) s).story h).embargo = (s.story h).embargo := by
  induction l generalizing s with
  | nil => exact ⟨nofun, fun _ => id, fun h held _ => ⟨held, rfl⟩⟩
  | cons g l ih =>
    have path := releaseFor_new (new g List.mem_cons_self)
    obtain ⟨released, stays, waits⟩ := ih (s := releaseFor m s g) fun h mem due => by
      have before : Due m s h := by
        by_contra other
        exact path.not_held_for other due
      have other : h ≠ g := fun same => not_due_releaseFor m s g (same ▸ due)
      obtain ⟨holders, marks, story⟩ := path.held_text (h := h) (fun own => other own.1) id before.1
      rw [story]
      exact new h (List.mem_cons_of_mem _ mem) before
    refine ⟨fun h mem due => ?_, fun h state => stays h (path.live_or_spent (fun own => ?_) state), fun h held other => ?_⟩
    · by_cases here : h = g
      · subst here
        exact stays h (releaseFor_state due)
      · have kept := path.held_eq (h := h) (fun own => here own.1) due.1
        exact released h ((List.mem_cons.mp mem).resolve_left here) ⟨kept.1, kept.2.trans due.2⟩
    · rw [own.2.1] at state
      rcases state with state | state <;> cases state
    · have kept := path.held_eq (h := h) (fun own => other own.2) held
      have later := waits h kept.1 fun due => other ⟨held, kept.2.symm.trans due.2⟩
      exact ⟨later.1, later.2.trans kept.2⟩

theorem selects_eq_true_iff (s : State) (e : Edge) :
    s.selects e = true ↔ s.edgeSelect = 3 ∨ (s.edgeSelect = 1 ∧ e = .rising) ∨ (s.edgeSelect = 2 ∧ e = .falling) := by
  unfold State.selects
  generalize s.edgeSelect = n
  cases e <;> split <;> simp_all

theorem edgeLevel_eq (e : Edge) : edgeLevel e = decide (e = .rising) := by
  cases e <;> rfl

/-- A state whose clock has advanced to a minute by an edge. -/
def ticked (s : State) (e : Edge) (m : Nat) : State :=
  { s with
    clock :=
      { s.clock with
        minute := m, pin := decide (e = .rising), lastSample := some (decide (e = .rising))
        accepted := some (decide (e = .rising)) } }

/-- Settles O41: the edge, the clock, and the stories that were due. -/
theorem minuteAdvanceReleasesHeld : Obligations.MinuteAdvanceReleasesHeld := by
  intro s e m isMinute
  refine ⟨fun other => congrArg Host.Outcome.next ?_, fun selected => ?_⟩
  · unfold State.minuteEdge
    rw [if_neg (mt (selects_eq_true_iff s e).mp other)]
  · have advanced : s.minuteEdge e = ((s.completion.foldl (releaseFor m) (ticked s e m)).testFlags).testRooms := by
      unfold State.minuteEdge
      rw [if_pos ((selects_eq_true_iff s e).mpr selected), isMinute]
      unfold ticked
      rw [← edgeLevel_eq]
      rfl
    refine ⟨_, _, congrArg Host.Outcome.next advanced, rfl, rfl, ?_, fun h mem => ?_, fun new => ⟨fun h mem held due => ?_,
      fun h held other => ?_⟩⟩
    · exact onlyStories_trans (Edits.foldl (releaseFor_edits m) s.completion (Edits.refl _)).onlyStories
        (onlyStories_testRooms _)
    · rw [story_testRooms, story_testFlags]
      exact not_due_foldl mem _
    all_goals rw [story_testRooms, story_testFlags]
    · exact (foldl_releaseFor_new (s := ticked s e m) fun h mem due => new h mem due.1 due.2).1 h mem ⟨held, due⟩
    · exact (foldl_releaseFor_new (s := ticked s e m) fun h mem due => new h mem due.1 due.2).2.2 h held fun due => other due.2

end Sys2Proof.Machine
end

section
/-!
PROOFS. The host's KILL of a story (R75, R76, R79).
-/

namespace Sys2Proof.Machine

open Sys2Proof.Claims

/-! ### What the flag and room tests leave alone -/

theorem completion_foldl {β : Type} {f : State → β → State} (each : ∀ s b, (f s b).completion = s.completion) (l : List β)
    (s : State) : (l.foldl f s).completion = s.completion := by
  induction l generalizing s with
  | nil => rfl
  | cons b l ih => rw [List.foldl_cons, ih, each]

theorem completion_testReserve (s : State) (w : WindowId) : (s.testReserve w).completion = s.completion := by
  unfold State.testReserve
  split
  · split
    · rfl
    · rw [reportPlain_eq, report_completion, onWindow_completion]
  · rfl

theorem testRingHold_eq_or (s : State) : s.testRingHold = s ∨ s.testRingHold = s.clearHold := by
  unfold State.testRingHold
  split
  · split
    · exact Or.inl rfl
    · exact Or.inr rfl
  · exact Or.inl rfl

theorem completion_testRooms (s : State) : s.testRooms.completion = s.completion := by
  have ring : ∀ t : State, t.testRingHold.completion = t.completion := fun t => by
    rcases testRingHold_eq_or t with e | e
    · rw [e]
    · rw [e]
      rfl
  exact (ring _).trans (completion_foldl completion_testReserve _ s)

theorem completion_testFlags (s : State) : s.testFlags.completion = s.completion := by
  unfold State.testFlags
  exact completion_foldl (fun s d => onDesk_completion s d _) allDesks s

/-- A window's story list is no part of its latch. -/
theorem windowStories_testRooms (s : State) (w : WindowId) : (s.testRooms.window w).stories = (s.window w).stories := by
  have reserve : ∀ (t : State) (v : WindowId), ((t.testReserve v).window w).stories = (t.window w).stories := fun t v => by
    unfold State.testReserve
    split
    · split
      · rfl
      · rw [reportPlain_eq, window_report, window_onWindow]
        split
        · next here => rw [here]
        · rfl
    · rw [window_onWindow]
      split
      · next here => rw [here]
      · rfl
  have ring : ∀ t : State, t.testRingHold.windows = t.windows := fun t => by
    rcases testRingHold_eq_or t with e | e
    · rw [e]
    · rw [e]
      rfl
  have fold : ∀ (l : List WindowId) (t : State),
      ((l.foldl State.testReserve t).window w).stories = (t.window w).stories := fun l => by
    induction l with
    | nil => exact fun _ => rfl
    | cons v l ih => exact fun t => (ih _).trans (reserve t v)
  unfold State.testRooms State.window
  rw [ring]
  exact fold allWindows s

theorem window_testFlags (s : State) (w : WindowId) : s.testFlags.window w = s.window w := by
  have fold : ∀ (l : List DeskId) (t : State), (l.foldl State.testFlag t).window w = t.window w := fun l => by
    induction l with
    | nil => exact fun _ => rfl
    | cons d l ih => exact fun t => ih _
  exact fold allDesks s

/-! ### KILL of a HELD story (R75, R79) -/

/-- A story retired: off its window's list, in its final state. -/
theorem story_retireTarget (s : State) (h : HandleId) (st : StoryState) :
    (s.retireTarget h st).story h = { s.story h with state := st } := by
  unfold State.retireTarget State.setStoryState State.leaveWindowList
  rw [story_onStory, if_pos rfl]
  rfl

theorem frees_retireTarget {s : State} {h : HandleId} (holders : (s.story h).holders = 0) {st : StoryState}
    (final : st = .killed ∨ st = .superseded) : Frees (s.retireTarget h st) h := by
  unfold Frees
  rw [story_retireTarget]
  exact ⟨final, holders⟩

/-- A retired story has left its window's list before it is settled. -/
theorem stories_offWindow_retireTarget (s : State) (h : HandleId) (st : StoryState) :
    ((offWindow (s.retireTarget h st) h).window (s.story h).window).stories =
      ((s.window (s.story h).window).stories.erase h).erase h := by
  have own : ((s.retireTarget h st).story h).window = (s.story h).window := by rw [story_retireTarget]
  have left : (s.retireTarget h st).window (s.story h).window =
      { s.window (s.story h).window with stories := (s.window (s.story h).window).stories.erase h } :=
    (window_onWindow s _ _ _).trans (if_pos rfl)
  have gone : (offWindow (s.retireTarget h st) h).window (s.story h).window =
      { (s.retireTarget h st).window (s.story h).window with
        stories := ((s.retireTarget h st).window (s.story h).window).stories.erase h } := by
    unfold offWindow
    rw [own]
    exact (window_onWindow _ _ _ _).trans (if_pos rfl)
  rw [gone, left]

theorem hostKill_held {s : State} {h : HandleId} (held : (s.story h).state = .held) :
    s.hostKill h = settled (s.retireTarget h .killed) h := by
  unfold State.hostKill
  rw [if_pos held, settleStory_eq]

/-- A HELD story without holders is FREE at once, with its STORY_DONE. -/
theorem hostKill_held_eq {s : State} {h : HandleId} (held : (s.story h).state = .held)
    (holders : (s.story h).holders = 0) :
    s.hostKill h =
      (({ offWindow (s.retireTarget h .killed) h with completion := s.completion.erase h } : State).onStory h fun r =>
        { generation := r.generation }).report (doneRecord s h 5) := by
  rw [hostKill_held held, settled_of_frees (frees_retireTarget holders (Or.inl rfl)), story_retireTarget, if_pos rfl,
    doneRecord_congr 5 (story_retireTarget s h .killed) rfl]
  rfl

/-! ### KILL of a LIVE or SPENT story (R76) -/

theorem hostKill_placed {s : State} {h : HandleId} (notHeld : (s.story h).state ≠ .held) :
    s.hostKill h = ((allDesks.foldl (State.hostKillAt h) s).retireTarget h .killed).settleStory h := by
  unfold State.hostKill
  exact if_neg notHeld

theorem hostKill_edits (s : State) (h : HandleId) :
    Edits everyDesk (fun x => x = h) noStory s (s.hostKill h) := by
  unfold State.hostKill
  split
  · exact (Edits.retireTarget (R := fun x => x = h) (Edits.refl s) rfl (Or.inl rfl)).settleStory h
  · refine (Edits.retireTarget (R := fun x => x = h) ?_ rfl (Or.inl rfl)).settleStory h
    exact Edits.foldl (D := everyDesk) (fun s _ => (Edits.refl s).hostKillAt h trivial) _ (Edits.refl s)

/-- What is done at each desk is done once, between what is done at the others. -/
theorem foldl_allDesks_at {R F : HandleId → Prop} {f : State → DeskId → State}
    (each : ∀ s d, Edits (fun x => x = d) R F s (f s d)) (s : State) (d : DeskId) :
    ∃ u, Edits (fun x => x ≠ d) R F s u ∧ u.desk d = s.desk d ∧
      Edits (fun x => x ≠ d) R F (f u d) (allDesks.foldl f s) := by
  obtain ⟨before, after, split, notBefore, notAfter⟩ := allDesks_split d
  have first := Edits.foldl_desks each notBefore s
  refine ⟨_, first, first.desk_eq fun ne => ne rfl, ?_⟩
  rw [split, List.foldl_append, List.foldl_cons]
  exact Edits.foldl_desks each notAfter _

/-- After the desks a KILL retires the story, settles it and makes the tests, and touches a desk's flag alone. -/
theorem hostKill_at {s : State} {h : HandleId} (state : (s.story h).state = .live ∨ (s.story h).state = .spent)
    (d : DeskId) :
    ∃ u, Edits (fun x => x ≠ d) noStory noStory s u ∧ u.desk d = s.desk d ∧ u.markAt h d = s.markAt h d ∧
      Edits (fun x => x ≠ d) (fun x => x = h) noStory (State.hostKillAt h u d) (s.hostKill h) := by
  have notHeld : (s.story h).state ≠ .held := by rcases state with state | state <;> rw [state] <;> exact nofun
  obtain ⟨u, before, desk, after⟩ := foldl_allDesks_at (R := noStory) (F := noStory)
    (fun s d => (Edits.refl s).hostKillAt h rfl) s d
  refine ⟨u, before, desk, before.mark_eq id state fun ne => ne rfl, ?_⟩
  rw [hostKill_placed notHeld]
  exact (Edits.retireTarget (R := fun x => x = h) (after.mono (fun _ => id) (fun _ => False.elim) fun _ => id) rfl
    (Or.inl rfl)).settleStory h

/-- The entry of a story leaves the queue where no follow-on names it. -/
theorem desk_removeEntry_queue {s : State} {d : DeskId} {h : HandleId}
    (direct : ∀ f, (s.desk d).directNext = some f → f.handle ≠ h)
    (saved : ∀ f, (s.desk d).savedFollowOn = some f → f.handle ≠ h) :
    ((s.removeEntry d h).desk d).queue = (s.desk d).queue.filter fun e => decide (e.handle ≠ h) := by
  have unnamed : ∀ x : Option FollowOn, (∀ f, x = some f → f.handle ≠ h) → namesFollowOn x h = false := fun x other => by
    unfold namesFollowOn
    cases x with
    | none => rfl
    | some f => simpa using other f rfl
  have same : ∀ t : State, ((t.releaseHolder h).setMark h d .dropped).desk d = t.desk d := fun _ => rfl
  unfold State.removeEntry
  dsimp only
  rw [same, desk_onDesk, if_pos rfl, unnamed _ direct, unnamed _ saved]
  rfl

theorem isTarget_eq_true_iff (st : StoryState) : st.isTarget = true ↔ st = .held ∨ st = .live ∨ st = .spent := by
  cases st <;> decide

theorem hostKill_state (s : State) {h : HandleId} (notHeld : (s.story h).state ≠ .held) :
    ((s.hostKill h).story h).state = .killed ∨ ((s.hostKill h).story h).state = .free := by
  rw [hostKill_placed notHeld]
  refine Edits.gone_or_free (D := everyDesk) (R := noStory) (F := noStory) ((Edits.refl _).settleStory h) id (Or.inl rfl)
    (Or.inl ?_)
  rw [story_retireTarget]

/-- Settles O32: the refusals, the HELD story, and the entries of a LIVE or SPENT one. -/
theorem killRetiresStory : Obligations.KillRetiresStory := by
  intro s w more h hd code run handle
  have yes : accepted .kill s.mode = true := decide_eq_true run
  have performed : (s.story h).generation = w.generation → (s.story h).state.isTarget = true →
      exec .kill s = .next (itemDone more ((s.hostKill h).testFlags.testRooms)) := fun same target =>
    exec_performed (k := .kill) hd code yes ((withStory_current s _ handle same).trans (if_pos target))
  have only : OnlyStories s ((s.hostKill h).testFlags.testRooms) :=
    onlyStories_trans (hostKill_edits s h).onlyStories (onlyStories_testRooms _)
  refine ⟨fun other => exec_refused (k := .kill) hd code yes (withStory_stale s _ handle other),
    fun same notHeld notLive notSpent => ?_, fun same held holders => ?_, fun same state => ?_⟩
  · refine exec_refused (k := .kill) hd code yes ((withStory_current s _ handle same).trans (if_neg fun target => ?_))
    rcases (isTarget_eq_true_iff _).mp target with held | live | spent
    · exact notHeld held
    · exact notLive live
    · exact notSpent spent
  · have killed := hostKill_held_eq held holders
    refine ⟨_, performed same ((isTarget_eq_true_iff _).mpr (Or.inl held)), ?_, only, ?_, ⟨_, rfl, ?_⟩, fun nodup mem => ?_⟩
    · rw [story_testRooms, story_testFlags, killed, story_report, story_onStory, if_pos rfl]
      have generation : ((s.retireTarget h .killed).story h).generation = (s.story h).generation := by
        rw [story_retireTarget]
      exact congrArg (fun g => ({ generation := g } : Story)) generation
    · rw [completion_testRooms, completion_testFlags, killed, report_completion]
      rfl
    · rw [killed, report_eq_onWriter, report_eq_onWriter]
      rfl
    · rw [windowStories_testRooms, window_testFlags, killed, window_report] at mem
      exact nodup.not_mem_erase (List.mem_of_mem_erase (stories_offWindow_retireTarget s h .killed ▸ mem))
  · refine ⟨_, performed same ((isTarget_eq_true_iff _).mpr (Or.inr state)), only, ?_, fun d queued direct saved => ?_⟩
    · rw [story_testRooms, story_testFlags]
      exact hostKill_state s (by rcases state with state | state <;> rw [state] <;> exact nofun)
    · obtain ⟨u, before, desk, mark, after⟩ := hostKill_at state d
      rw [desk_testRooms, desk_testFlags]
      have kill : State.hostKillAt h u d = u.removeEntry d h := by
        unfold State.hostKillAt
        rw [mark, queued]
      rw [after.desk_eq (fun ne => ne rfl), kill]
      exact (desk_removeEntry_queue (by rw [desk]; exact direct) (by rw [desk]; exact saved)).trans (by rw [desk])

end Sys2Proof.Machine
end

section
/-!
PROOFS. CLOSE DESK (R85): the marks and holders of what the desk held, the desk emptied, and the record of it.
-/

namespace Sys2Proof.Machine

open Sys2Proof.Claims

/-! ### The story table's transitions on one record -/

/-- What becoming SPENT and FREE keep of a record, a settled story's and any other's keep. -/
theorem settled_record {Q : Story → Prop} (spent : ∀ r, r.state = .live → Q r → Q { r with state := .spent })
    (cleared : ∀ r, Q r → Q { generation := r.generation }) (s : State) (h x : HandleId) (start : Q (s.story x)) :
    Q ((settled s h).story x) := by
  by_cases spends : Spends s h
  · rw [settled_of_spends spends, story_report]
    have same : (offWindow (s.onStory h fun r => { r with state := .spent }) h).story x =
        (s.onStory h fun r => { r with state := .spent }).story x := rfl
    rw [same, story_onStory]
    split
    · next here =>
      subst here
      exact spent _ spends.1 start
    · exact start
  by_cases frees : Frees s h
  · rw [settled_of_frees frees, story_report, story_onStory]
    split
    · next here =>
      subst here
      exact cleared _ start
    · exact start
  · rwa [settled_of_stands spends frees]

/-- Marks and holders outlast the settling of stories, or the record is FREE. -/
theorem settle_foldl_record {x : HandleId} {marks : Vector Mark 24} {holders : Nat} (l : List HandleId) {s : State}
    (start : (s.story x).state = .free ∨ ((s.story x).marks = marks ∧ (s.story x).holders = holders)) :
    ((l.foldl State.settleStory s).story x).state = .free ∨
      (((l.foldl State.settleStory s).story x).marks = marks ∧
        ((l.foldl State.settleStory s).story x).holders = holders) := by
  induction l generalizing s with
  | nil => exact start
  | cons h l ih =>
    refine ih ?_
    rw [settleStory_eq]
    refine settled_record (Q := fun r => r.state = .free ∨ (r.marks = marks ∧ r.holders = holders)) (fun r live kept => ?_)
      (fun r _ => Or.inl rfl) s h x start
    rcases kept with free | same
    · rw [free] at live
      cases live
    · exact Or.inr same

/-! ### What a closing desk gives up (R85) -/

/-- The desk apart, a change of stories alone. -/
def StoriesAlone (s t : State) : Prop := t = { s with stories := t.stories }

theorem markAt_setMark_other {s : State} {h x : HandleId} (other : h ≠ x) (d e : DeskId) (m : Mark) :
    (s.setMark h d m).markAt x e = s.markAt x e := by
  unfold State.markAt State.setMark
  rw [story_onStory, if_neg other]

theorem markAt_releaseHolder (s : State) (h x : HandleId) (d : DeskId) :
    (s.releaseHolder h).markAt x d = s.markAt x d := by
  unfold State.markAt State.releaseHolder
  rw [story_onStory]
  split
  · next here =>
    subst here
    rfl
  · rfl

theorem holders_setMark (s : State) (h x : HandleId) (d : DeskId) (m : Mark) :
    ((s.setMark h d m).story x).holders = (s.story x).holders := by
  unfold State.setMark
  rw [story_onStory]
  split
  · next here => rw [here]
  · rfl

theorem holders_releaseHolder (s : State) (h x : HandleId) :
    ((s.releaseHolder h).story x).holders = if h = x then (s.story x).holders - 1 else (s.story x).holders := by
  unfold State.releaseHolder
  rw [story_onStory]
  split
  · next here => rw [here]
  · rfl

section

variable (s : State) (d : DeskId)

theorem closeItem_markAt (h x : HandleId) (b : Bool) :
    (s.closeItem d h b).markAt x d =
      if b = true ∧ h = x ∧ s.markAt h d = .active then .cut else s.markAt x d := by
  unfold State.closeItem
  dsimp only
  rw [markAt_releaseHolder]
  by_cases active : b = true ∧ s.markAt h d = .active
  · rw [if_pos active]
    by_cases here : h = x
    · subst here
      rw [if_pos ⟨active.1, rfl, active.2⟩]
      exact markAt_setMark _ h d .cut
    · rw [if_neg fun both => here both.2.1, markAt_setMark_other here, markAt_releaseHolder]
  · rw [if_neg active, if_neg fun both => active ⟨both.1, both.2.2⟩, markAt_releaseHolder]

theorem closeItem_holders (h x : HandleId) (b : Bool) :
    ((s.closeItem d h b).story x).holders = if h = x then (s.story x).holders - 1 else (s.story x).holders := by
  unfold State.closeItem
  dsimp only
  split
  · rw [holders_setMark, holders_releaseHolder]
  · rw [holders_releaseHolder]

theorem closeItem_alone (h : HandleId) (b : Bool) : StoriesAlone s (s.closeItem d h b) := by
  unfold State.closeItem
  dsimp only
  split <;> rfl

theorem closeItem_sameText (h : HandleId) (b : Bool) : SameText s (s.closeItem d h b) := by
  unfold State.closeItem
  dsimp only
  split
  · exact ((SameText.refl s).releaseHolder h).setMark h d .cut
  · exact (SameText.refl s).releaseHolder h

theorem closeEntry_markAt (e : DeskEntry) (x : HandleId) :
    (State.closeEntry d s e).markAt x d = if e.kind = .story ∧ e.handle = x then .dropped else s.markAt x d := by
  unfold State.closeEntry
  cases kind : e.kind with
  | story =>
    rw [dropMark_story _ d kind]
    by_cases here : e.handle = x
    · subst here
      rw [if_pos ⟨rfl, rfl⟩]
      exact markAt_setMark _ _ d .dropped
    · rw [if_neg fun both => here both.2, markAt_setMark_other here, markAt_releaseHolder]
  | killNotice =>
    rw [dropMark_killNotice _ d kind, if_neg (fun both => nomatch both.1), markAt_releaseHolder]

theorem closeEntry_holders (e : DeskEntry) (x : HandleId) :
    ((State.closeEntry d s e).story x).holders =
      if e.handle = x then (s.story x).holders - 1 else (s.story x).holders := by
  unfold State.closeEntry State.dropMark
  split
  · rw [holders_setMark, holders_releaseHolder]
  · rw [holders_releaseHolder]

theorem closeEntry_alone (e : DeskEntry) : StoriesAlone s (State.closeEntry d s e) := by
  unfold State.closeEntry State.dropMark
  split <;> rfl

theorem closeEntry_sameText (e : DeskEntry) : SameText s (State.closeEntry d s e) :=
  ((SameText.refl s).releaseHolder e.handle).dropMark d e

end

/-! ### The whole of what the desk held (R85) -/

theorem storiesAlone_trans {s t u : State} (first : StoriesAlone s t) (second : StoriesAlone t u) : StoriesAlone s u :=
  second.trans (congrArg (fun x : State => { x with stories := u.stories }) first)

theorem closeEntries_alone (d : DeskId) (l : List DeskEntry) (s : State) :
    StoriesAlone s (l.foldl (State.closeEntry d) s) := by
  induction l generalizing s with
  | nil => rfl
  | cons e l ih => exact storiesAlone_trans (closeEntry_alone s d e) (ih _)

theorem closeEntries_sameText (d : DeskId) (l : List DeskEntry) (s : State) :
    SameText s (l.foldl (State.closeEntry d) s) := by
  induction l generalizing s with
  | nil => exact SameText.refl s
  | cons e l ih => exact (closeEntry_sameText s d e).trans (ih _)

theorem closeEntries_dropped (d : DeskId) {x : HandleId} {l : List DeskEntry} {s : State}
    (named : (∃ e ∈ l, e.kind = .story ∧ e.handle = x) ∨ s.markAt x d = .dropped) :
    (l.foldl (State.closeEntry d) s).markAt x d = .dropped := by
  induction l generalizing s with
  | nil => exact named.resolve_left nofun
  | cons e l ih =>
    refine ih ?_
    rw [closeEntry_markAt]
    by_cases here : e.kind = .story ∧ e.handle = x
    · exact Or.inr (if_pos here)
    · rw [if_neg here]
      refine named.imp_left fun ⟨y, mem, is⟩ => ⟨y, (List.mem_cons.mp mem).resolve_left fun same => here (same ▸ is), is⟩

theorem closeEntries_unnamed (d : DeskId) {x : HandleId} {l : List DeskEntry}
    (unnamed : ¬ ∃ e ∈ l, e.kind = .story ∧ e.handle = x) (s : State) :
    (l.foldl (State.closeEntry d) s).markAt x d = s.markAt x d := by
  induction l generalizing s with
  | nil => rfl
  | cons e l ih =>
    refine (ih (fun ⟨y, mem, is⟩ => unnamed ⟨y, List.mem_cons_of_mem e mem, is⟩) _).trans ?_
    rw [closeEntry_markAt, if_neg fun is => unnamed ⟨e, List.mem_cons_self, is⟩]

theorem closeEntries_holders (d : DeskId) (x : HandleId) (l : List DeskEntry) (s : State) :
    ((l.foldl (State.closeEntry d) s).story x).holders =
      (s.story x).holders - l.countP fun e => decide (e.handle = x) := by
  induction l generalizing s with
  | nil => rfl
  | cons e l ih =>
    rw [List.foldl_cons, ih, closeEntry_holders, List.countP_cons]
    by_cases here : e.handle = x
    · simp [here]
      omega
    · simp [here]

/-- The entries a closing desk removes name the stories that wait there. -/
theorem waits_iff (k : Desk) (x : HandleId) :
    (∃ e ∈ k.removedEntries, e.kind = .story ∧ e.handle = x) ↔ Waits k x := by
  have follow : ∀ f : Option FollowOn, (∃ e ∈ followOnEntries f, e.kind = .story ∧ e.handle = x) ↔ Follows f x := by
    rintro (_ | f)
    · exact ⟨nofun, nofun⟩
    · unfold followOnEntries Follows
      simp
  unfold Desk.removedEntries Waits
  simp only [List.mem_append, or_and_right, exists_or, follow]
  exact or_comm

/-- The state once the current item and the saved context of a closing desk have given up their marks and holders. -/
def closingItems (s : State) (d : DeskId) : State :=
  let first := (s.desk d).context.elim s fun c => s.closeItem d c.handle (decide (c.kind = .story))
  (s.desk d).saved.elim first fun v => first.closeItem d v.handle true

/-- The state once all that a closing desk held has. -/
def closing (s : State) (d : DeskId) : State :=
  (s.desk d).removedEntries.foldl (State.closeEntry d) (closingItems s d)

theorem closingItems_alone (s : State) (d : DeskId) : StoriesAlone s (closingItems s d) := by
  unfold closingItems
  cases (s.desk d).context with
  | none =>
    cases (s.desk d).saved with
    | none => rfl
    | some v => exact closeItem_alone s d v.handle true
  | some c =>
    cases (s.desk d).saved with
    | none => exact closeItem_alone s d c.handle _
    | some v => exact storiesAlone_trans (closeItem_alone s d c.handle _) (closeItem_alone _ d v.handle true)

theorem closingItems_sameText (s : State) (d : DeskId) : SameText s (closingItems s d) := by
  unfold closingItems
  cases (s.desk d).context with
  | none =>
    cases (s.desk d).saved with
    | none => exact SameText.refl s
    | some v => exact closeItem_sameText s d v.handle true
  | some c =>
    cases (s.desk d).saved with
    | none => exact closeItem_sameText s d c.handle _
    | some v => exact (closeItem_sameText s d c.handle _).trans (closeItem_sameText _ d v.handle true)

theorem closing_alone (s : State) (d : DeskId) : StoriesAlone s (closing s d) :=
  storiesAlone_trans (closingItems_alone s d) (closeEntries_alone d _ _)

theorem closing_sameText (s : State) (d : DeskId) : SameText s (closing s d) :=
  (closingItems_sameText s d).trans (closeEntries_sameText d _ _)

/-- The ACTIVE mark of a current STORY item becomes CUT. -/
theorem closingItems_context {s : State} {d : DeskId} {c : SendContext} (context : (s.desk d).context = some c)
    (kind : c.kind = .story) (active : s.markAt c.handle d = .active) : (closingItems s d).markAt c.handle d = .cut := by
  have first : (s.closeItem d c.handle (decide (c.kind = .story))).markAt c.handle d = .cut := by
    rw [closeItem_markAt, if_pos ⟨decide_eq_true kind, rfl, active⟩]
  unfold closingItems
  rw [context]
  cases (s.desk d).saved with
  | none => exact first
  | some v =>
    dsimp only [Option.elim]
    rw [closeItem_markAt, first, ite_self]

/-- The ACTIVE mark of a saved context becomes CUT, and one that is CUT stays. -/
theorem closingItems_saved {s : State} {d : DeskId} {v : SavedContext} (saved : (s.desk d).saved = some v)
    (mark : s.markAt v.handle d = .active ∨ s.markAt v.handle d = .cut) :
    (closingItems s d).markAt v.handle d = .cut := by
  have last : ∀ t : State, t.markAt v.handle d = .active ∨ t.markAt v.handle d = .cut →
      (t.closeItem d v.handle true).markAt v.handle d = .cut := fun t mark => by
    rw [closeItem_markAt]
    split
    · rfl
    · next other => exact mark.resolve_left fun active => other ⟨rfl, rfl, active⟩
  unfold closingItems
  rw [saved]
  cases (s.desk d).context with
  | none => exact last s mark
  | some c =>
    refine last _ ?_
    dsimp only [Option.elim]
    rw [closeItem_markAt]
    split
    · exact Or.inr rfl
    · exact mark

theorem closing_waits {s : State} {d : DeskId} {x : HandleId} (waits : Waits (s.desk d) x) :
    (closing s d).markAt x d = .dropped :=
  closeEntries_dropped d (Or.inl ((waits_iff _ x).mpr waits))

theorem closing_other {s : State} {d : DeskId} {x : HandleId} (other : ¬ Waits (s.desk d) x) :
    (closing s d).markAt x d = (closingItems s d).markAt x d :=
  closeEntries_unnamed d (mt (waits_iff _ x).mp other) _

theorem closing_holders (s : State) (d : DeskId) (x : HandleId) :
    ((closing s d).story x).holders = (s.story x).holders - placesOf (s.desk d) x := by
  have follow : ∀ f : Option FollowOn, (followOnEntries f).countP (fun e => decide (e.handle = x)) =
      f.toList.countP fun f => decide (f.handle = x) := by
    rintro (_ | f)
    · rfl
    · unfold followOnEntries
      simp only [Option.toList_some, List.countP_singleton]
  have items : ((closingItems s d).story x).holders = (s.story x).holders -
      (((s.desk d).context.toList.countP fun c => decide (c.handle = x)) +
        (s.desk d).saved.toList.countP fun v => decide (v.handle = x)) := by
    unfold closingItems
    cases (s.desk d).context with
    | none =>
      cases (s.desk d).saved with
      | none => rfl
      | some v =>
        dsimp only [Option.elim]
        rw [closeItem_holders]
        simp only [Option.toList_some, Option.toList_none, List.countP_nil, List.countP_singleton, decide_eq_true_eq]
        split <;> omega
    | some c =>
      cases (s.desk d).saved with
      | none =>
        dsimp only [Option.elim]
        rw [closeItem_holders]
        simp only [Option.toList_some, Option.toList_none, List.countP_nil, List.countP_singleton, decide_eq_true_eq]
        split <;> omega
      | some v =>
        dsimp only [Option.elim]
        rw [closeItem_holders, closeItem_holders]
        simp only [Option.toList_some, List.countP_singleton, decide_eq_true_eq]
        split <;> split <;> omega
  unfold closing Desk.removedEntries placesOf
  rw [closeEntries_holders, items, List.countP_append, List.countP_append, follow, follow]
  omega

/-! ### The command (R85) -/

theorem closeDesk_eq (s : State) (d : DeskId) :
    s.closeDesk d = ((s.desk d).heldStories.foldl State.settleStory
      (((closing s d).onDesk d Desk.closed).report (closedRecord s d))).testRooms := by
  have removed : byteOf (s.desk d).removedEntries.length = byte ((s.desk d).queue.length +
      (s.desk d).directNext.toList.length + (s.desk d).savedFollowOn.toList.length) := by
    have follow : ∀ f : Option FollowOn, (followOnEntries f).length = f.toList.length := by
      rintro (_ | f) <;> rfl
    unfold Desk.removedEntries
    rw [List.length_append, List.length_append, follow, follow]
    exact congrArg byte (by omega)
  have same := (closing_sameText s d).onDesk d Desk.closed
  have clock : ((closing s d).onDesk d Desk.closed).clock = s.clock := by
    rw [onDesk_clock, closing_alone s d]
  have reported : ((closing s d).onDesk d Desk.closed).reportClosed d (s.desk d).context (s.desk d).removedEntries.length =
      ((closing s d).onDesk d Desk.closed).report (closedRecord s d) := by
    unfold State.reportClosed closedRecord
    dsimp only
    cases (s.desk d).context with
    | none =>
      dsimp only
      rw [removed, clock]
      rfl
    | some c =>
      dsimp only
      rw [reportStory_eq, naming_congr same clock, removed]
      rfl
  rw [← reported]
  unfold State.closeDesk closing closingItems
  dsimp only
  cases (s.desk d).context <;> cases (s.desk d).saved <;> rfl

theorem closeDesk_edits (s : State) (d : DeskId) :
    Edits (fun x => x = d) noStory noStory s (s.closeDesk d) := by
  unfold State.closeDesk
  have settle := fun (l : List HandleId) {t : State} (e : Edits (fun x => x = d) noStory noStory s t) =>
    Edits.foldl (fun s h => (Edits.refl s).settleStory h) l e
  have entries := fun (l : List DeskEntry) {t : State} (e : Edits (fun x => x = d) noStory noStory s t) =>
    Edits.foldl (fun s e => Edits.closeEntry (D := fun x => x = d) (Edits.refl s) rfl e) l e
  have reported := fun {t : State} (e : Edits (fun x => x = d) noStory noStory s t) (c : Option SendContext) (n : Nat) =>
    show Edits (fun x => x = d) noStory noStory s (t.reportClosed d c n) from by
      cases c with
      | none => exact e.report _
      | some c => exact e.report _
  have item := fun {t : State} (e : Edits (fun x => x = d) noStory noStory s t) (h : HandleId) (b : Bool) =>
    Edits.closeItem (D := fun x => x = d) e rfl h b
  refine (settle _ (reported (Edits.onDesk (entries _ ?_) rfl _) _ _)).testRooms
  split
  · refine item ?_ _ _
    split
    · exact item (Edits.refl s) _ _
    · exact Edits.refl s
  · split
    · exact item (Edits.refl s) _ _
    · exact Edits.refl s

theorem desk_foldl_settleStory (l : List HandleId) (s : State) (d : DeskId) :
    (l.foldl State.settleStory s).desk d = s.desk d := by
  induction l generalizing s with
  | nil => rfl
  | cons h l ih => exact (ih _).trans (desk_settleStory s h d)

/-- A story's marks and holders once a desk has been closed, unless its record is FREE. -/
theorem closeDesk_record (s : State) (d : DeskId) (x : HandleId) :
    ((s.closeDesk d).story x).state = .free ∨ (((s.closeDesk d).story x).marks = ((closing s d).story x).marks ∧
      ((s.closeDesk d).story x).holders = ((closing s d).story x).holders) := by
  rw [closeDesk_eq, story_testRooms]
  refine settle_foldl_record _ (Or.inr ?_)
  rw [story_report]
  exact ⟨rfl, rfl⟩

theorem closeDesk_mark {s : State} {d : DeskId} {x : HandleId} {m : Mark} (mark : (closing s d).markAt x d = m) :
    (s.closeDesk d).markAt x d = m ∨ ((s.closeDesk d).story x).state = .free := by
  rcases closeDesk_record s d x with free | ⟨marks, -⟩
  · exact Or.inr free
  · refine Or.inl ?_
    unfold State.markAt at mark ⊢
    rw [marks, mark]

/-- Settles O34: the desk, the marks, the holders and the record. -/
theorem closeDeskEmptiesIt : Obligations.CloseDeskEmptiesIt := by
  intro s w more d hd code run target
  have yes : accepted .closeDesk s.mode = true := decide_eq_true run
  have performed : s.perform .closeDesk w = if (s.desk d).isOpen then .ok (s.closeDesk d) else .error .wrongState :=
    withDesk_of_target _ target
  refine ⟨fun closed => exec_refused (k := .closeDesk) hd code yes (performed.trans (if_neg (by simp [closed]))),
    fun isOpen => ⟨_, exec_performed (k := .closeDesk) hd code yes (performed.trans (if_pos isOpen)),
      (closeDesk_edits s d).onlyStories, ?_, fun d' other => (closeDesk_edits s d).desk_eq other, fun e mem kind => ?_,
      fun h follows => ?_, fun c context kind active notWaits => ?_, fun v saved mark notWaits => ?_, fun h notFree => ?_,
      fun ring room => ?_, fun context saved queue direct savedFollowOn => ?_⟩⟩
  · have desk : (closing s d).desk d = s.desk d := by
      rw [closing_alone s d]
      rfl
    rw [closeDesk_eq, desk_testRooms, desk_foldl_settleStory, desk_report, desk_onDesk, if_pos rfl, desk]
    rfl
  · exact closeDesk_mark (closing_waits (Or.inl ⟨e, mem, kind, rfl⟩))
  · exact closeDesk_mark (closing_waits (Or.inr follows))
  · exact closeDesk_mark ((closing_other notWaits).trans (closingItems_context context kind active))
  · exact closeDesk_mark ((closing_other notWaits).trans (closingItems_saved saved mark))
  · rcases closeDesk_record s d h with free | ⟨-, holders⟩
    · exact absurd free notFree
    · rw [holders, closing_holders]
  · rw [closeDesk_eq]
    have same : ((closing s d).onDesk d Desk.closed).writer = s.writer ∧
        ((closing s d).onDesk d Desk.closed).ringCode = s.ringCode := by
      rw [closing_alone s d]
      exact ⟨rfl, rfl⟩
    have queued : (((closing s d).onDesk d Desk.closed).report (closedRecord s d)).writer.queue =
        s.writer.queue ++ [closedRecord s d] := by
      rw [report_eq_onWriter]
      unfold State.onWriter State.writerAfterReport
      dsimp only
      rw [if_pos (by rw [same.1, same.2]; exact ⟨room, ring⟩), same.1]
    obtain ⟨later, queue⟩ := (Edits.foldl (D := fun _ => False) (R := noStory) (F := noStory)
      (fun s h => (Edits.refl s).settleStory h) (s.desk d).heldStories (Edits.refl _)).testRooms.queue_append
      ⟨[], (queued.trans (List.append_nil _).symm)⟩
    exact ⟨later, by rw [queue, List.append_assoc]; rfl⟩
  · rw [closeDesk_eq]
    have held : (s.desk d).heldStories = [] := by
      unfold Desk.heldStories Desk.removedEntries
      rw [context, saved, queue, direct, savedFollowOn]
      rfl
    have nothing : closing s d = s := by
      unfold closing closingItems Desk.removedEntries
      rw [context, saved, queue, direct, savedFollowOn]
      rfl
    have emptied : s.onDesk d Desk.closed = s.onDesk d fun k =>
        { k with isOpen := false, preempt := false, buffer := [], staging0 := .empty, staging1 := .empty } := by
      refine onDesk_congr _ ?_
      unfold Desk.closed
      simp [context, saved, queue, direct, savedFollowOn]
    have record : closedRecord s d =
        { kind := .deskClosed, subject := byte (d.val + 1), handle := 0xFF, generation := 0xFF, serial := 0
          minute := s.clock.minute, detail := [0] } := by
      unfold closedRecord
      rw [context, queue, direct, savedFollowOn]
      rfl
    rw [held, nothing, emptied, record]
    rfl

end Sys2Proof.Machine
end

section
/-!
SUPPORT. The request at the upstream port has no part in the release of a story: each operation on stories gives the same
with another port.
-/

namespace Sys2Proof.Machine

open Sys2Proof.Claims

/-- A state with a request at its port, or none. -/
def withPort (p : Option PortRequest) (s : State) : State := { s with port := p }

section

variable (p : Option PortRequest) (s : State)

@[simp] theorem desk_withPort (d : DeskId) : (withPort p s).desk d = s.desk d := rfl
@[simp] theorem story_withPort (h : HandleId) : (withPort p s).story h = s.story h := rfl
@[simp] theorem window_withPort (w : WindowId) : (withPort p s).window w = s.window w := rfl
@[simp] theorem markAt_withPort (h : HandleId) (d : DeskId) : (withPort p s).markAt h d = s.markAt h d := rfl

theorem report_withPort (r : Record) : (withPort p s).report r = withPort p (s.report r) := by
  rw [report_eq_onWriter, report_eq_onWriter]
  rfl

theorem reportStory_withPort (k : ReportKind) (b : Byte) (h : HandleId) (l : List Byte) :
    (withPort p s).reportStory k b h l = withPort p (s.reportStory k b h l) := report_withPort p s _

theorem settleStory_withPort (h : HandleId) : (withPort p s).settleStory h = withPort p (s.settleStory h) := by
  rw [settleStory_eq, settleStory_eq]
  by_cases spends : Spends s h
  · rw [settled_of_spends spends, settled_of_spends (s := withPort p s) spends, ← report_withPort]
    rfl
  by_cases frees : Frees s h
  · rw [settled_of_frees frees, settled_of_frees (s := withPort p s) frees, ← report_withPort]
    rfl
  · rw [settled_of_stands spends frees, settled_of_stands (s := withPort p s) spends frees]

theorem foldl_withPort {β : Type} {f : State → β → State} (each : ∀ s b, f (withPort p s) b = withPort p (f s b))
    (l : List β) : l.foldl f (withPort p s) = withPort p (l.foldl f s) := by
  induction l generalizing s with
  | nil => rfl
  | cons b l ih => rw [List.foldl_cons, each, ih, List.foldl_cons]

/-! ### Queues -/

theorem dropMark_withPort (d : DeskId) (e : DeskEntry) : (withPort p s).dropMark d e = withPort p (s.dropMark d e) := by
  unfold State.dropMark
  cases e.kind <;> rfl

theorem joinQueue_withPort (d : DeskId) (e : DeskEntry) : (withPort p s).joinQueue d e = withPort p (s.joinQueue d e) := by
  unfold State.joinQueue
  cases e.kind <;> rfl

theorem displaceTail_withPort (d : DeskId) (e : DeskEntry) (h : HandleId) :
    (withPort p s).displaceTail d e h = withPort p (s.displaceTail d e h) := by
  unfold State.displaceTail State.reportDrop
  dsimp only
  rw [← settleStory_withPort, ← reportStory_withPort, ← dropMark_withPort]
  rfl

theorem insertEntry_withPort (d : DeskId) (e : DeskEntry) :
    (withPort p s).insertEntry d e = withPort p (s.insertEntry d e) := by
  unfold State.insertEntry
  rw [desk_withPort]
  split
  · exact joinQueue_withPort p s d e
  · cases (s.desk d).queue.getLast? with
    | none => exact joinQueue_withPort p s d e
    | some tail =>
      dsimp only
      split
      · rw [dropMark_withPort]
        exact reportStory_withPort p _ _ _ _ _
      · rw [displaceTail_withPort, joinQueue_withPort]

theorem placeNewAt_withPort (h : HandleId) (d : DeskId) :
    (withPort p s).placeNewAt h d = withPort p (s.placeNewAt h d) := by
  by_cases kept : Keeps s h d
  · rw [placeNewAt_kept kept, placeNewAt_kept (s := withPort p s) kept]
    exact insertEntry_withPort p s d _
  · rw [placeNewAt_other kept, placeNewAt_other (s := withPort p s) kept]

theorem placeNew_withPort (h : HandleId) : (withPort p s).placeNew h = withPort p (s.placeNew h) :=
  foldl_withPort p s (fun s d => placeNewAt_withPort p s h d) allDesks

theorem removeEntry_withPort (d : DeskId) (h : HandleId) :
    (withPort p s).removeEntry d h = withPort p (s.removeEntry d h) := rfl

theorem replaceEntry_withPort (d : DeskId) (old new : HandleId) :
    (withPort p s).replaceEntry d old new = withPort p (s.replaceEntry d old new) := rfl

/-! ### Cuts -/

theorem beginNext_withPort (d : DeskId) (c : SendContext) (x : Continuation) :
    (withPort p s).beginNext d c x = withPort p (s.beginNext d c x) := by
  induction x with
  | finish => rfl
  | header => rfl
  | text o =>
    unfold State.beginNext
    rw [beginText_eq, beginText_eq]
    rfl
  | trailer => rfl
  | notice k h next ih =>
    unfold State.beginNext
    by_cases out : s.noticeLeftOut k = true
    · rw [if_pos out]
      exact (if_pos out).trans ih
    · rw [if_neg out]
      exact if_neg out

end

/-- The follow-on of a cut current item, with its holder and mark, in the direct next place (R70, R119). -/
def directFollow (d : DeskId) (x : Option HandleId) (s : State) : State :=
  (s.giveFollowOn d x).onDesk d fun k =>
    { k with directNext := match x with
        | none => k.directNext
        | some h => some (s.followOn h) }

/-- The follow-on of a cut saved context, with its holder and mark, in its place (R70, R120). -/
def savedFollow (d : DeskId) (x : Option HandleId) (s : State) : State :=
  (s.giveFollowOn d x).onDesk d fun k =>
    { k with savedFollowOn := match x with
        | none => k.savedFollowOn
        | some h => some (s.followOn h) }

/-- The cut of the current item, up to its follow-on (R119). -/
theorem cutCurrent_eq (s : State) (d : DeskId) (c : SendContext) (k : NoticeKind) (x : Option HandleId) :
    s.cutCurrent d c k x = (directFollow d x (((s.onDesk d stopped).setMark c.handle d .cut).reportStory .storyCut
      (deskSubject d) c.handle [byteOf k.code, 0, byteOf c.segment.code, followOnByte x])).beginNext d c
      (.notice k c.handle .finish) := by
  cases x <;> rfl

/-- The cut of the saved context (R120). -/
theorem cutSaved_eq (s : State) (d : DeskId) (v : SavedContext) (k : NoticeKind) (x : Option HandleId) :
    s.cutSaved d v k x = savedFollow d x (((s.onDesk d fun e =>
      { e with saved := some { v with cutNotice := some k } }).setMark v.handle d .cut).reportStory .storyCut
      (deskSubject d) v.handle [byteOf k.code, 1, byteOf v.resume.code, followOnByte x]) := by
  cases x <;> rfl

section

variable (p : Option PortRequest) (s : State)

theorem directFollow_withPort (d : DeskId) (x : Option HandleId) :
    directFollow d x (withPort p s) = withPort p (directFollow d x s) := by
  cases x <;> rfl

theorem savedFollow_withPort (d : DeskId) (x : Option HandleId) :
    savedFollow d x (withPort p s) = withPort p (savedFollow d x s) := by
  cases x <;> rfl

theorem cutCurrent_withPort (d : DeskId) (c : SendContext) (k : NoticeKind) (x : Option HandleId) :
    (withPort p s).cutCurrent d c k x = withPort p (s.cutCurrent d c k x) := by
  rw [cutCurrent_eq, cutCurrent_eq, ← beginNext_withPort, ← directFollow_withPort, ← reportStory_withPort]
  rfl

theorem cutSaved_withPort (d : DeskId) (v : SavedContext) (k : NoticeKind) (x : Option HandleId) :
    (withPort p s).cutSaved d v k x = withPort p (s.cutSaved d v k x) := by
  rw [cutSaved_eq, cutSaved_eq, ← savedFollow_withPort, ← reportStory_withPort]
  rfl

theorem cutOrder_withPort (d : DeskId) (h : HandleId) (k : NoticeKind) (x : Option HandleId) :
    (withPort p s).cutOrder d h k x = withPort p (s.cutOrder d h k x) := by
  unfold State.cutOrder
  rw [desk_withPort]
  cases (s.desk d).context with
  | none =>
    cases (s.desk d).saved with
    | none => rfl
    | some v =>
      dsimp only
      rw [cutSaved_withPort]
      exact (apply_ite (withPort p) _ _ _).symm
  | some c =>
    cases (s.desk d).saved with
    | none =>
      dsimp only
      rw [cutCurrent_withPort]
      exact (apply_ite (withPort p) _ _ _).symm
    | some v =>
      dsimp only
      rw [cutCurrent_withPort, cutSaved_withPort, apply_ite (withPort p), apply_ite (withPort p)]

/-! ### Release -/

theorem placeWriteThruAt_withPort (w h : HandleId) (d : DeskId) :
    State.placeWriteThruAt w h (withPort p s) d = withPort p (State.placeWriteThruAt w h s d) := by
  unfold State.placeWriteThruAt
  rw [desk_withPort, markAt_withPort]
  split
  · cases s.markAt h d with
    | queued =>
      dsimp only
      rw [story_withPort, story_withPort, replaceEntry_withPort, removeEntry_withPort, apply_ite (withPort p),
        ← insertEntry_withPort]
      rfl
    | active => exact cutOrder_withPort p s d h .correction (some w)
    | done => exact insertEntry_withPort p s d _
    | absent => exact placeNewAt_withPort p s w d
    | dropped => exact placeNewAt_withPort p s w d
    | cut => exact placeNewAt_withPort p s w d
  · rfl

theorem placeKillAt_withPort (w h : HandleId) (d : DeskId) :
    State.placeKillAt w h (withPort p s) d = withPort p (State.placeKillAt w h s d) := by
  unfold State.placeKillAt
  rw [desk_withPort, markAt_withPort]
  split
  · cases s.markAt h d with
    | queued => exact removeEntry_withPort p s d h
    | active => exact cutOrder_withPort p s d h .kill (some w)
    | done => exact insertEntry_withPort p s d _
    | absent => rfl
    | dropped => rfl
    | cut => rfl
  · rfl

theorem recordTarget_withPort (w : HandleId) (x : Option HandleId) :
    (withPort p s).recordTarget w x = withPort p (s.recordTarget w x) := by
  cases x with
  | none => exact reportStory_withPort p s _ _ _ _
  | some t => rfl

theorem retireTarget_withPort (h : HandleId) (st : StoryState) :
    (withPort p s).retireTarget h st = withPort p (s.retireTarget h st) := rfl

theorem placeWriteThru_withPort (w : HandleId) (x : Option HandleId) :
    (withPort p s).placeWriteThru w x = withPort p (s.placeWriteThru w x) := by
  cases x with
  | none => exact placeNew_withPort p s w
  | some t =>
    unfold State.placeWriteThru
    dsimp only
    rw [story_withPort, foldl_withPort p s fun s d => placeWriteThruAt_withPort p s w t d, apply_ite (withPort p),
      retireTarget_withPort, retireTarget_withPort, placeNew_withPort]

theorem placeKill_withPort (w : HandleId) (x : Option HandleId) :
    (withPort p s).placeKill w x = withPort p (s.placeKill w x) := by
  cases x with
  | none => rfl
  | some t =>
    unfold State.placeKill
    dsimp only
    rw [story_withPort, foldl_withPort p s fun s d => placeKillAt_withPort p s w t d, apply_ite (withPort p),
      retireTarget_withPort, retireTarget_withPort]

theorem placeReleased_withPort (w : HandleId) (x : Option HandleId) :
    (withPort p s).placeReleased w x = withPort p (s.placeReleased w x) := by
  unfold State.placeReleased
  rw [story_withPort]
  cases (s.story w).mode with
  | new => exact placeNew_withPort p s w
  | writeThru =>
    dsimp only
    rw [recordTarget_withPort, placeWriteThru_withPort]
  | kill =>
    dsimp only
    rw [recordTarget_withPort, placeKill_withPort]

theorem releaseStory_withPort (h : HandleId) : (withPort p s).releaseStory h = withPort p (s.releaseStory h) := by
  have live : (withPort p s).setStoryState h .live = withPort p (s.setStoryState h .live) := rfl
  have target : ∀ t : State, (withPort p t).targetAtRelease h = t.targetAtRelease h := fun _ => rfl
  unfold State.releaseStory State.reportPlaced
  dsimp only
  rw [live, target, placeReleased_withPort, story_withPort, reportStory_withPort]
  cases (s.setStoryState h .live).targetAtRelease h with
  | none => exact settleStory_withPort p _ h
  | some t =>
    dsimp only
    rw [settleStory_withPort, settleStory_withPort]
    rfl

end

end Sys2Proof.Machine
end

section
/-!
PROOFS. The intake parser: a byte read in each parse state (R40 to R46), the bytes of a write, and the write taken (R38, R39,
R50, R51, R62).
-/

namespace Sys2Proof.Machine

open Sys2Proof.Claims

/-! ### One byte (R40 to R46) -/

theorem onWindow_self {s : State} {w : WindowId} {f : Window → Window} (same : f (s.window w) = s.window w) :
    s.onWindow w f = s := by
  simp only [State.onWindow, modifyAt_self s.windows w f same]

theorem openAt_of_some {s : State} {g : HandleId} (give : s.entryToGive = some g) (w : WindowId) (a : Addr) :
    s.openAt w a = some (opened s w g a) := by
  unfold State.openAt
  rw [give]
  rfl

theorem openAt_of_none {s : State} (give : s.entryToGive = none) (w : WindowId) (a : Addr) : s.openAt w a = none := by
  unfold State.openAt
  rw [give]

/-- The code of every reason that a check of a lead gives. -/
theorem leadReason_of_checkLead {lead : List Byte} {reason : AbandonReason} (bad : checkLead lead = .error reason) :
    leadReason reason = reason.code := by
  unfold checkLead at bad
  split at bad
  · unfold checkFields at bad
    repeat' split at bad
    all_goals cases bad
    all_goals rfl
  · cases bad
    rfl

/-- A text byte's extents, the last one grown or another opened (R45). -/
theorem growExtents_append (b : Addr) (front : List Extent) (e : Extent) :
    growExtents b (front ++ [e]) =
      if b = e.start + BitVec.ofNat 28 e.length then front ++ [⟨e.start, e.length + 1⟩] else front ++ [e, ⟨b, 1⟩] := by
  induction front with
  | nil => rfl
  | cons x front ih =>
    have step : growExtents b (x :: (front ++ [e])) = x :: growExtents b (front ++ [e]) := by
      cases front <;> rfl
    rw [List.cons_append, step, ih]
    split <;> rfl

/-- A START finds the same entry and opens the same story whatever parse state stood. -/
theorem openAt_setParse (s : State) (w : WindowId) (p : ParseState) (a : Addr) :
    (s.setParse w p).openAt w a = s.openAt w a := by
  have give : (s.setParse w p).entryToGive = s.entryToGive := rfl
  cases e : s.entryToGive with
  | none => rw [openAt_of_none e, openAt_of_none (give.trans e)]
  | some g =>
    rw [openAt_of_some e, openAt_of_some (give.trans e)]
    have gave : (s.setParse w p).allocate g w a = (s.allocate g w a).setParse w p := rfl
    have opens : ∀ t : State, opened t w g a = (t.allocate g w a).onWindow w fun k =>
        { k with stories := k.stories ++ [g], parse := .lead, lead := [], textCount := 0, extents := [] } := fun _ => rfl
    rw [opens, opens, gave, State.setParse, onWindow_onWindow]

/-- A START that abandons the story being read opens another one in what that leaves (R41, R42, R45). -/
theorem abandonOpen_openAt {s : State} {w : WindowId} {h : HandleId} (isOpen : s.openStory w = some h)
    (window : (s.story h).window = w) (noHold : s.hold = none) (reason : AbandonReason) (a : Addr) :
    (s.abandonOpen w reason).openAt w a = (abandoned s w h reason.code .lead).openAt w a := by
  rw [← setParse_abandonOpen isOpen window noHold reason .lead, openAt_setParse]

theorem mustHold_iff (s : State) (h : HandleId) :
    s.mustHold h = true ↔ (s.story h).embargo ≠ none ∧ (s.story h).embargo ≠ some s.clock.minute := by
  unfold State.mustHold
  cases (s.story h).embargo <;> simp

/-- STORY_IN of a story as it stood, its text recorded since (R64, R188). -/
theorem reportIn_eq {s t : State} {h : HandleId} {count : Nat} {extents : List Extent} {st : StoryState}
    (story : t.story h = { s.story h with textCount := count, extents := extents, state := st }) (held : Bool) :
    t.reportIn h held = t.report
      { kind := .storyIn, subject := byte (s.story h).window.val, handle := byte h.val
        generation := (s.story h).generation, serial := (s.story h).serial
        minute := (s.story h).embargo.getD 0xFFFF
        detail := [byte (s.story h).cls.code, byte (s.story h).mode.code, if held then 1 else 0] } := by
  unfold State.reportIn
  rw [story]
  cases held <;> rfl

/-- A state in which a story has its text and stands in the completion list (R64). -/
def textRecorded (s : State) (h : HandleId) (count : Nat) (extents : List Extent) : State :=
  ({ s with completion := s.completion ++ [h] } : State).onStory h fun r => { r with textCount := count, extents := extents }

theorem completeStory_textRecorded (s : State) (h : HandleId) (count : Nat) (extents : List Extent) :
    s.completeStory h count extents =
      if (textRecorded s h count extents).mustHold h then
        ((textRecorded s h count extents).setStoryState h .held).reportIn h true
      else ((textRecorded s h count extents).reportIn h false).releaseStory h := rfl

/-- The completion of a story, in the words of the claims (R64). -/
theorem completeStory_eq (s : State) (h : HandleId) (count : Nat) (extents : List Extent) :
    s.completeStory h count extents = completed s h count extents := by
  have story : (textRecorded s h count extents).story h = { s.story h with textCount := count, extents := extents } :=
    (story_onStory _ _ _ _).trans (if_pos rfl)
  have hold : (textRecorded s h count extents).mustHold h = true ↔
      (s.story h).embargo ≠ none ∧ (s.story h).embargo ≠ some s.clock.minute := by
    rw [mustHold_iff, story]
    rfl
  have made : (textRecorded s h count extents).setStoryState h .held =
      ({ s with completion := s.completion ++ [h] } : State).onStory h fun r =>
        { r with textCount := count, extents := extents, state := .held } :=
    onStory_onStory ({ s with completion := s.completion ++ [h] } : State) h _ _
  have madeStory : ((textRecorded s h count extents).setStoryState h .held).story h =
      { s.story h with textCount := count, extents := extents, state := .held } := by
    rw [made, story_onStory, if_pos rfl]
    rfl
  rw [completeStory_textRecorded]
  unfold completed
  dsimp only
  by_cases held : (s.story h).embargo ≠ none ∧ (s.story h).embargo ≠ some s.clock.minute
  · rw [if_pos (hold.mpr held), reportIn_eq madeStory, made]
    simp only [if_pos held]
    rfl
  · rw [if_neg (mt (hold.mp) held), reportIn_eq (st := (s.story h).state) story]
    simp only [if_neg held]
    rfl

theorem endText_of_open {s : State} {w : WindowId} {h : HandleId} (isOpen : s.openStory w = some h) :
    s.endText w = (completed s h (s.window w).textCount (s.window w).extents).onWindow w fun k =>
      { k with parse := .hunt, lead := [], textCount := 0, extents := [] } := by
  unfold State.endText State.dropGathered State.setParse
  rw [isOpen]
  dsimp only
  rw [completeStory_eq, onWindow_onWindow]

theorem startByte_wait {s : State} {w : WindowId} (waits : (s.window w).parse = .hunt ∨ (s.window w).parse = .skip)
    (a : Addr) : s.startByte w a = s.openAt w a := by
  unfold State.startByte
  rcases waits with hunt | skip
  · rw [hunt]
  · rw [skip]

theorem parseByte_start (s : State) (w : WindowId) (a : Addr) : s.parseByte w a 0x01 = s.startByte w a := if_pos rfl

/-- A byte between two stories. -/
theorem parseByte_of_waitRead {s t : State} {w : WindowId} {b : Addr} {v : Byte}
    (waits : (s.window w).parse = .hunt ∨ (s.window w).parse = .skip) (read : WaitRead w s b v t) :
    s.parseByte w b v = some t := by
  unfold WaitRead at read
  by_cases start : v = 0x01
  · subst start
    rw [if_pos rfl] at read
    obtain ⟨g, give, rfl⟩ := read
    rw [parseByte_start, startByte_wait waits, openAt_of_some give]
  · rw [if_neg start] at read
    unfold State.parseByte
    rw [if_neg (show v ≠ houseStart from start), read]
    rcases waits with hunt | skip
    · rw [hunt]
      refine congrArg some ?_
      split
      · exact (onWindow_self (by rw [← hunt])).symm
      · rfl
    · rw [skip]
      exact (apply_ite some (v = houseEnd) _ _).symm

section

variable {s t : State} {w : WindowId} {b : Addr} {v : Byte} {h : HandleId} (isOpen : s.openStory w = some h)
  (window : (s.story h).window = w) (noHold : s.hold = none)
include isOpen window noHold

theorem openAt_of_startsAgain {reason : AbandonReason} (again : StartsAgain w s b h reason.code t) :
    (s.abandonOpen w reason).openAt w b = some t := by
  obtain ⟨g, give, rfl⟩ := again
  rw [abandonOpen_openAt isOpen window noHold, openAt_of_some give]

/-- A byte in the lead of a story. -/
theorem parseByte_of_leadRead (parse : (s.window w).parse = .lead) (read : LeadRead w s b v h t) :
    s.parseByte w b v = some t := by
  have abandon := setParse_abandonOpen isOpen window noHold
  unfold LeadRead at read
  by_cases start : v = 0x01
  · subst start
    rw [if_pos rfl] at read
    rw [parseByte_start, State.startByte, parse]
    exact openAt_of_startsAgain isOpen window noHold (reason := .startInLead) read
  have lead : s.parseByte w b v = some (s.leadByte w b v) := by
    unfold State.parseByte
    rw [if_neg (show v ≠ houseStart from start), parse]
  rw [if_neg start] at read
  rw [lead]
  refine congrArg some ?_
  unfold State.leadByte
  by_cases text : v = 0x02
  · rw [if_pos (show v = houseText from text)]
    rw [if_pos text] at read
    unfold State.endLead
    cases checked : checkLead (s.window w).lead with
    | error reason =>
      rw [checked] at read
      rw [read, leadReason_of_checkLead checked]
      exact abandon reason .skip
    | ok f =>
      rw [checked] at read
      rw [read, isOpen]
      rfl
  rw [if_neg (show v ≠ houseText from text)]
  rw [if_neg text] at read
  by_cases ends : v = 0x03
  · rw [if_pos (show v = houseEnd from ends)]
    rw [if_pos ends] at read
    rw [read]
    exact abandon .endInLead .hunt
  rw [if_neg (show v ≠ houseEnd from ends)]
  rw [if_neg ends] at read
  by_cases short : (s.window w).lead.length < 96
  · rw [if_neg (Nat.not_le.mpr short)]
    rw [if_pos short] at read
    exact read.symm
  · rw [if_pos (Nat.le_of_not_lt short)]
    rw [if_neg short] at read
    rw [read]
    exact abandon .leadTooLong .hunt

/-- A byte in the text of a story. -/
theorem parseByte_of_textRead (parse : (s.window w).parse = .text) (read : TextRead w s b v h t) :
    s.parseByte w b v = some t := by
  have abandon := setParse_abandonOpen isOpen window noHold
  unfold TextRead at read
  by_cases start : v = 0x01
  · subst start
    rw [if_pos rfl] at read
    rw [parseByte_start, State.startByte, parse]
    exact openAt_of_startsAgain isOpen window noHold (reason := .startInText) read
  have text : s.parseByte w b v = some (s.textByte w b v) := by
    unfold State.parseByte
    rw [if_neg (show v ≠ houseStart from start), parse]
  rw [if_neg start] at read
  rw [text]
  refine congrArg some ?_
  unfold State.textByte textLimit
  by_cases ends : v = 0x03
  · rw [if_pos (show v = houseEnd from ends)]
    rw [if_pos ends] at read
    rw [read]
    exact endText_of_open isOpen
  rw [if_neg (show v ≠ houseEnd from ends)]
  rw [if_neg ends] at read
  by_cases full : 65535 ≤ (s.window w).textCount
  · rw [if_pos full] at read ⊢
    rw [read]
    exact abandon .textTooLong .skip
  · rw [if_neg full] at read ⊢
    obtain ⟨front, e, extents, rfl⟩ := read
    refine onWindow_congr _ ?_
    rw [extents, growExtents_append]

end

/-- A byte read in the parse state that stands. -/
theorem parseByte_of_byteRead {s t : State} {w : WindowId} {b : Addr} {v : Byte} (noHold : s.hold = none)
    (read : ByteRead w s b v t) : s.parseByte w b v = some t := by
  unfold ByteRead at read
  cases parse : (s.window w).parse with
  | hunt =>
    rw [parse] at read
    exact parseByte_of_waitRead (Or.inl parse) read
  | skip =>
    rw [parse] at read
    exact parseByte_of_waitRead (Or.inr parse) read
  | lead =>
    rw [parse] at read
    obtain ⟨h, isOpen, window, read⟩ := read
    exact parseByte_of_leadRead isOpen window noHold parse read
  | text =>
    rw [parse] at read
    obtain ⟨h, isOpen, window, read⟩ := read
    exact parseByte_of_textRead isOpen window noHold parse read

end Sys2Proof.Machine
end

section
/-!
PROOFS. The bytes of a window write, read from first to last, and the write taken, held or out of sequence (R38, R39, R50,
R51, R62).
-/

namespace Sys2Proof.Machine

open Sys2Proof.Claims

/-! ### The port has no part in reading -/

section

variable (p : Option PortRequest) (s : State)

theorem abandonOpen_withPort (w : WindowId) (r : AbandonReason) :
    (withPort p s).abandonOpen w r = withPort p (s.abandonOpen w r) := by
  have isOpen : (withPort p s).openStory w = s.openStory w := rfl
  have free : ∀ (t : State) (h : HandleId), (withPort p t).freeStory h = withPort p (t.freeStory h) := fun t h => by
    rw [freeStory_eq, freeStory_eq]
    rfl
  unfold State.abandonOpen
  rw [isOpen]
  cases s.openStory w with
  | none => rfl
  | some h =>
    dsimp only
    rw [story_withPort, reportStory_withPort, free]
    rfl

theorem openAt_withPort (w : WindowId) (a : Addr) : (withPort p s).openAt w a = (s.openAt w a).map (withPort p) := by
  have give : (withPort p s).entryToGive = s.entryToGive := rfl
  cases e : s.entryToGive with
  | none =>
    rw [openAt_of_none e, openAt_of_none (give.trans e)]
    rfl
  | some g =>
    rw [openAt_of_some e, openAt_of_some (give.trans e)]
    rfl

theorem startByte_withPort (w : WindowId) (a : Addr) :
    (withPort p s).startByte w a = (s.startByte w a).map (withPort p) := by
  unfold State.startByte
  rw [window_withPort]
  cases (s.window w).parse with
  | hunt => exact openAt_withPort p s w a
  | skip => exact openAt_withPort p s w a
  | lead =>
    dsimp only
    rw [abandonOpen_withPort, openAt_withPort]
  | text =>
    dsimp only
    rw [abandonOpen_withPort, openAt_withPort]

theorem setParse_withPort (w : WindowId) (x : ParseState) :
    (withPort p s).setParse w x = withPort p (s.setParse w x) := rfl

theorem endLead_withPort (w : WindowId) (a : Addr) : (withPort p s).endLead w a = withPort p (s.endLead w a) := by
  have isOpen : (withPort p s).openStory w = s.openStory w := rfl
  unfold State.endLead
  rw [window_withPort]
  cases checkLead (s.window w).lead with
  | error reason =>
    dsimp only
    rw [abandonOpen_withPort, setParse_withPort]
  | ok f =>
    dsimp only
    rw [isOpen]
    cases s.openStory w <;> rfl

theorem leadByte_withPort (w : WindowId) (a : Addr) (b : Byte) :
    (withPort p s).leadByte w a b = withPort p (s.leadByte w a b) := by
  unfold State.leadByte
  rw [endLead_withPort, abandonOpen_withPort, abandonOpen_withPort, setParse_withPort, setParse_withPort, window_withPort,
    apply_ite (withPort p), apply_ite (withPort p), apply_ite (withPort p)]
  rfl

theorem completeStory_withPort (h : HandleId) (count : Nat) (extents : List Extent) :
    (withPort p s).completeStory h count extents = withPort p (s.completeStory h count extents) := by
  have recorded : textRecorded (withPort p s) h count extents = withPort p (textRecorded s h count extents) := rfl
  have hold : ∀ t : State, (withPort p t).mustHold h = t.mustHold h := fun _ => rfl
  have reported : ∀ (t : State) (b : Bool), (withPort p t).reportIn h b = withPort p (t.reportIn h b) := fun t b =>
    report_withPort p t _
  have held : ∀ t : State, (withPort p t).setStoryState h .held = withPort p (t.setStoryState h .held) := fun _ => rfl
  rw [completeStory_textRecorded, completeStory_textRecorded, recorded, hold, held, reported, reported,
    releaseStory_withPort, apply_ite (withPort p)]

theorem endText_withPort (w : WindowId) : (withPort p s).endText w = withPort p (s.endText w) := by
  have isOpen : (withPort p s).openStory w = s.openStory w := rfl
  unfold State.endText
  rw [isOpen]
  cases s.openStory w with
  | none => rfl
  | some h =>
    dsimp only
    rw [window_withPort, completeStory_withPort]
    rfl

theorem textByte_withPort (w : WindowId) (a : Addr) (b : Byte) :
    (withPort p s).textByte w a b = withPort p (s.textByte w a b) := by
  unfold State.textByte
  rw [endText_withPort, abandonOpen_withPort, setParse_withPort, window_withPort, apply_ite (withPort p),
    apply_ite (withPort p)]
  rfl

theorem parseByte_withPort (w : WindowId) (a : Addr) (b : Byte) :
    (withPort p s).parseByte w a b = (s.parseByte w a b).map (withPort p) := by
  unfold State.parseByte
  rw [startByte_withPort, window_withPort]
  by_cases start : b = houseStart
  · rw [if_pos start, if_pos start]
  rw [if_neg start, if_neg start]
  cases (s.window w).parse with
  | hunt => rfl
  | skip =>
    dsimp only
    split <;> rfl
  | lead => exact congrArg some (leadByte_withPort p s w a b)
  | text => exact congrArg some (textByte_withPort p s w a b)

theorem parseBytes_withPort (w : WindowId) (bytes : List (Addr × Byte)) :
    State.parseBytes w bytes (withPort p s) = (State.parseBytes w bytes s).map (withPort p) := by
  induction bytes generalizing s with
  | nil => rfl
  | cons x rest ih =>
    unfold State.parseBytes
    rw [parseByte_withPort]
    cases s.parseByte w x.1 x.2 with
    | none => rfl
    | some t => exact ih t

end

/-! ### The bytes of a write -/

/-- Nothing of the part but a write's own hold begins one. -/
theorem stable_noHold : Stable False (fun s => s.hold = none) where
  desk := fun _ _ no => no.elim
  trunk := fun _ _ no => no.elim
  onStory := fun _ _ hold => hold
  onWindow := fun _ _ hold => hold
  completion := fun _ hold => hold
  clearHold := fun _ => rfl
  onDesk := fun _ _ hold _ => hold
  onTrunk := fun _ _ hold _ => hold
  report := fun {s} r hold => (report_hold s r).trans hold

theorem parseBytes_cons {s t : State} {w : WindowId} {x : Addr × Byte} (read : s.parseByte w x.1 x.2 = some t)
    (rest : List (Addr × Byte)) : State.parseBytes w (x :: rest) s = State.parseBytes w rest t := by
  conv_lhs => unfold State.parseBytes
  rw [read]

/-- Bytes read one after another are passed over, and the parser stands in what they leave. -/
theorem parseBytes_append {w : WindowId} {before : List (Addr × Byte)} (after : List (Addr × Byte)) {s t : State}
    (noHold : s.hold = none) (read : BytesRead w before s t) :
    State.parseBytes w (before ++ after) s = State.parseBytes w after t := by
  induction before generalizing s with
  | nil =>
    cases read
    rfl
  | cons x rest ih =>
    obtain ⟨b, v⟩ := x
    obtain ⟨u, byte, read⟩ := read
    have parsed := parseByte_of_byteRead noHold byte
    exact (parseBytes_cons parsed (rest ++ after)).trans (ih (stable_noHold.parseByte noHold parsed) read)

theorem parseBytes_of_bytesRead {w : WindowId} {bytes : List (Addr × Byte)} {s t : State} (noHold : s.hold = none)
    (read : BytesRead w bytes s t) : State.parseBytes w bytes s = .ok t := by
  have parsed := parseBytes_append [] noHold read
  rwa [List.append_nil] at parsed

/-! ### A window write (R38, R39) -/

theorem intakeWrite_full {s : State} {w : WindowId} {a : Addr} {beats : List Beat}
    (full : s.noRoom w (enabledBytes a (beats.map (s.translateBeat w))) = true) :
    s.intakeWrite w a beats = .held (.ringFull w) := by
  unfold State.intakeWrite
  exact if_pos full

section

variable {s : State} {w : WindowId} {a : Addr} {beats : List Beat}
  (room : s.noRoom w (enabledBytes a (beats.map (s.translateBeat w))) = false)
include room

theorem intakeWrite_out (out : s.inSequence w (enabledBytes a (beats.map (s.translateBeat w))) = false) :
    s.intakeWrite w a beats = .forwarded (beats.map (s.translateBeat w))
      (s.outOfSequence w (s.afterLast w (enabledBytes a (beats.map (s.translateBeat w))))) := by
  unfold State.intakeWrite
  dsimp only
  rw [room, out]
  rfl

theorem intakeWrite_read (inSequence : s.inSequence w (enabledBytes a (beats.map (s.translateBeat w))) = true) {t : State}
    (read : State.parseBytes w (enabledBytes a (beats.map (s.translateBeat w))) s = .ok t) :
    s.intakeWrite w a beats = .forwarded (beats.map (s.translateBeat w))
      (t.moveIntake w (s.afterLast w (enabledBytes a (beats.map (s.translateBeat w))))) := by
  unfold State.intakeWrite
  dsimp only
  rw [room, inSequence, read]
  rfl

theorem intakeWrite_table (inSequence : s.inSequence w (enabledBytes a (beats.map (s.translateBeat w))) = true) {b : Addr}
    (refused : State.parseBytes w (enabledBytes a (beats.map (s.translateBeat w))) s = .error b) :
    s.intakeWrite w a beats = .held (.tableFull w b) := by
  unfold State.intakeWrite
  dsimp only
  rw [room, inSequence, refused]
  rfl

end

theorem guard_eq_some {s : State} {w : WindowId} {h : HandleId} {more : List HandleId}
    (stories : (s.window w).stories = h :: more) : s.guard w = some (s.story h).origin := by
  unfold State.guard
  rw [stories]
  rfl

/-- A write finds no room by the guard of its window (R38 step 3, R39). -/
theorem noRoom_iff {s : State} {w : WindowId} {h : HandleId} {more : List HandleId}
    (stories : (s.window w).stories = h :: more) (bytes : List (Addr × Byte)) :
    s.noRoom w bytes = true ↔
      if s.inSequence w bytes then s.room w ≤ bytes.length else s.afterLast w bytes = (s.story h).origin := by
  unfold State.noRoom
  rw [guard_eq_some stories]
  dsimp only
  split <;> exact decide_eq_true_iff

theorem noRoom_false_in {s : State} {w : WindowId} {bytes : List (Addr × Byte)} (inSequence : s.inSequence w bytes = true)
    (room : (s.window w).stories = [] ∨ bytes.length < s.room w) : s.noRoom w bytes = false := by
  cases stories : (s.window w).stories with
  | nil => exact noRoom_eq_false stories bytes
  | cons h more =>
    rw [stories] at room
    refine Bool.eq_false_iff.mpr fun full => ?_
    rw [noRoom_iff stories, if_pos inSequence] at full
    have := room.resolve_left nofun
    omega

theorem noRoom_false_out {s : State} {w : WindowId} {bytes : List (Addr × Byte)} (out : s.inSequence w bytes = false)
    (apart : ∀ h more, (s.window w).stories = h :: more → s.afterLast w bytes ≠ (s.story h).origin) :
    s.noRoom w bytes = false := by
  cases stories : (s.window w).stories with
  | nil => exact noRoom_eq_false stories bytes
  | cons h more =>
    refine Bool.eq_false_iff.mpr fun full => ?_
    rw [noRoom_iff stories, if_neg (by rw [out]; exact Bool.false_ne_true)] at full
    exact apart h more stories full

end Sys2Proof.Machine
end

section
/-!
PROOFS. TAKE_UPSTREAM_REQUEST of a write that an ENABLED window's parser takes (R38 to R46, R50, R62).
-/

namespace Sys2Proof.Machine

open Sys2Proof.Claims

section

variable {s : State} {w : WindowId} {a : Addr} {beats : List Beat} {bytes : List (Addr × Byte)}
  (taken : IntakeTaken s w a beats bytes)
include taken

/-- A write that the parser holds. -/
theorem exec_of_held {cause : HoldCause} (held : (s.atPort (.write a beats)).intakeWrite w a beats = .held cause) :
    exec (.takeUpstreamRequest (.write a beats)) s = .next
      { s with
        ownWait := waited s
        port := some ⟨.write a beats, false⟩
        hold := some { cause := cause, limit := s.holdLimit, elapsed := 0 } } := by
  rw [exec_take_window taken]
  unfold State.takeWindowWrite
  rw [held]
  rfl

/-- A write that the parser forwards, having made `u` of the state. -/
theorem exec_of_forwarded {after : Addr} {u : State}
    (forwards : (s.atPort (.write a beats)).intakeWrite w a beats = .forwarded (beats.map (s.translateBeat w))
      ((withPort (some ⟨.write a beats, false⟩) u).moveIntake w after)) :
    exec (.takeUpstreamRequest (.write a beats)) s = .next (takenIn s w a beats after u) := by
  rw [exec_take_window taken]
  unfold State.takeWindowWrite
  rw [forwards]
  rfl

theorem noHold_of_taken : s.hold = none := taken.2.1.2.1

theorem bytes_of_taken : enabledBytes a (beats.map (s.translateBeat w)) = bytes := taken.2.2.2.2.2.2

/-- Without room by the guard of its window, the write is held with RING_FULL (R38 step 3, R39, R50). -/
theorem exec_full {h : HandleId} {more : List HandleId} (stories : (s.window w).stories = h :: more)
    (full : if s.inSequence w bytes then s.room w ≤ bytes.length else s.afterLast w bytes = (s.story h).origin) :
    exec (.takeUpstreamRequest (.write a beats)) s = .next
      { s with
        ownWait := waited s
        port := some ⟨.write a beats, false⟩
        hold := some { cause := .ringFull w, limit := s.holdLimit, elapsed := 0 } } := by
  refine exec_of_held taken (intakeWrite_full ?_)
  have bytesEq := bytes_of_taken taken
  subst bytesEq
  exact (noRoom_iff (s := s) stories _).mpr full

/-- A write out of sequence is forwarded unread (R39). -/
theorem exec_out (out : s.inSequence w bytes = false)
    (apart : ∀ h more, (s.window w).stories = h :: more → s.afterLast w bytes ≠ (s.story h).origin) {u : State}
    (left : (s.atPort (.write a beats)).outOfSequence w (s.afterLast w bytes) =
      (withPort (some ⟨.write a beats, false⟩) u).moveIntake w (s.afterLast w bytes)) :
    exec (.takeUpstreamRequest (.write a beats)) s = .next (takenIn s w a beats (s.afterLast w bytes) u) := by
  have bytesEq := bytes_of_taken taken
  subst bytesEq
  have room : s.noRoom w (enabledBytes a (beats.map (s.translateBeat w))) = false := noRoom_false_out out apart
  refine exec_of_forwarded taken ?_
  rw [← left]
  exact intakeWrite_out (s := s.atPort (.write a beats)) room out

/-- A write in sequence and with room is read byte by byte (R38 step 5). -/
theorem exec_read (inSequence : s.inSequence w bytes = true) (room : (s.window w).stories = [] ∨ bytes.length < s.room w)
    {t : State} (read : BytesRead w bytes { s with ownWait := waited s } t) :
    exec (.takeUpstreamRequest (.write a beats)) s = .next (takenIn s w a beats (s.afterLast w bytes) t) := by
  have noHold := noHold_of_taken taken
  have bytesEq := bytes_of_taken taken
  subst bytesEq
  have room : s.noRoom w (enabledBytes a (beats.map (s.translateBeat w))) = false := noRoom_false_in inSequence room
  have parsed := parseBytes_withPort (some ⟨.write a beats, false⟩) { s with ownWait := waited s } w
    (enabledBytes a (beats.map (s.translateBeat w)))
  rw [parseBytes_of_bytesRead (s := { s with ownWait := waited s }) noHold read] at parsed
  exact exec_of_forwarded taken (intakeWrite_read (s := s.atPort (.write a beats)) room inSequence parsed)

/-- A START between two stories that finds no entry holds the whole write with TABLE_FULL (R38 step 4, R51). -/
theorem exec_table {b : Addr} {before after : List (Addr × Byte)} (split : bytes = before ++ (b, 0x01) :: after)
    (inSequence : s.inSequence w bytes = true) (room : (s.window w).stories = [] ∨ bytes.length < s.room w) {t : State}
    (read : BytesRead w before { s with ownWait := waited s } t)
    (waits : (t.window w).parse = .hunt ∨ (t.window w).parse = .skip) (full : t.entryToGive = none) :
    exec (.takeUpstreamRequest (.write a beats)) s = .next
      { s with
        ownWait := waited s
        port := some ⟨.write a beats, false⟩
        hold := some { cause := .tableFull w b, limit := s.holdLimit, elapsed := 0 } } := by
  have noHold := noHold_of_taken taken
  have bytesEq := bytes_of_taken taken
  subst bytesEq
  have room : s.noRoom w (enabledBytes a (beats.map (s.translateBeat w))) = false := noRoom_false_in inSequence room
  have refused : State.parseBytes w ((b, 0x01) :: after) t = .error b := by
    have start : t.parseByte w b 0x01 = none := by rw [parseByte_start, startByte_wait waits, openAt_of_none full]
    unfold State.parseBytes
    rw [start]
  have parsed := parseBytes_withPort (some ⟨.write a beats, false⟩) { s with ownWait := waited s } w
    (enabledBytes a (beats.map (s.translateBeat w)))
  rw [split, parseBytes_append (s := { s with ownWait := waited s }) _ noHold read, refused, ← split] at parsed
  exact exec_of_held taken (intakeWrite_table (s := s.atPort (.write a beats)) room inSequence parsed)

end

/-! ### What a write out of sequence leaves (R39) -/

theorem outOfSequence_wait {s : State} {w : WindowId} (waits : (s.window w).parse = .hunt ∨ (s.window w).parse = .skip)
    (after : Addr) : s.outOfSequence w after = (s.setParse w .hunt).moveIntake w after := by
  unfold State.outOfSequence
  rcases waits with hunt | skip
  · rw [hunt]
  · rw [skip]

theorem outOfSequence_open {s : State} {w : WindowId} {h : HandleId}
    (reads : (s.window w).parse = .lead ∨ (s.window w).parse = .text) (isOpen : s.openStory w = some h)
    (window : (s.story h).window = w) (noHold : s.hold = none) (after : Addr) :
    s.outOfSequence w after = (abandoned s w h 14 .hunt).moveIntake w after := by
  rw [← show AbandonReason.sequence.code = 14 from rfl, ← setParse_abandonOpen isOpen window noHold]
  unfold State.outOfSequence
  rcases reads with lead | text
  · rw [lead]
  · rw [text]

theorem abandoned_withPort (p : Option PortRequest) (s : State) (w : WindowId) (h : HandleId) (reason : Nat)
    (parse : ParseState) : abandoned (withPort p s) w h reason parse = withPort p (abandoned s w h reason parse) := by
  unfold abandoned
  rw [show ({ withPort p s with completion := (withPort p s).completion.erase h } : State) =
    withPort p { s with completion := s.completion.erase h } from rfl]
  rw [show ∀ (t : State) (r : Record), (withPort p t).report r = withPort p (t.report r) from fun t r => report_withPort p t r]
  rfl

/-! ### The entry that a START is given (R62) -/

theorem entryToGive_eq_of_free {s : State} {h : HandleId} (free : (s.story h).state = .free)
    (lowest : ∀ g, g < h → (s.story g).state ≠ .free) : s.entryToGive = some h := by
  have found : allHandles.find? (fun h => decide ((s.story h).state = .free)) = some h := by
    refine List.find?_eq_some_iff_getElem.mpr ⟨decide_eq_true free, h.val, by simp [allHandles], by simp [allHandles], ?_⟩
    intro j lt
    have other := lowest ⟨j, by omega⟩ lt
    simp only [allHandles, List.getElem_finRange]
    simpa using other
  unfold State.entryToGive
  rw [found]

theorem entryToGive_ne_none_of_free {s : State} {h : HandleId} (free : (s.story h).state = .free) :
    s.entryToGive ≠ none := by
  have found : (allHandles.find? fun h => decide ((s.story h).state = .free)).isSome :=
    List.find?_isSome.mpr ⟨h, List.mem_finRange h, decide_eq_true free⟩
  obtain ⟨g, found⟩ := Option.isSome_iff_exists.mp found
  unfold State.entryToGive
  rw [found]
  nofun

theorem entryToGive_eq_of_noFree {s : State} (full : ∀ g, (s.story g).state ≠ .free) :
    s.entryToGive = s.completion.find? fun h => decide ((s.story h).state = .spent) := by
  have none : allHandles.find? (fun h => decide ((s.story h).state = .free)) = none :=
    List.find?_eq_none.mpr fun g _ => by simpa using full g
  unfold State.entryToGive State.spentList
  rw [none]
  exact List.head?_filter

theorem story_abandoned (s : State) (w : WindowId) (h : HandleId) (reason : Nat) (parse : ParseState) :
    ((abandoned s w h reason parse).story h).state = .free := by
  unfold abandoned
  rw [story_onWindow, story_onStory, if_pos rfl]

/-- Settles O5: the guard, the sequence, and the bytes read one by one. -/
theorem intakeReadsByState : Obligations.IntakeReadsByState := by
  refine ⟨fun s a beats w bytes h more taken stories full => exec_full taken stories full, ?_,
    fun s t a beats w bytes taken inSequence room read => exec_read taken inSequence room read,
    fun s t a b beats w before after taken inSequence room read waits full =>
      exec_table taken rfl inSequence room read waits full,
    fun s w h reason parse => entryToGive_ne_none_of_free (story_abandoned s w h reason parse)⟩
  rintro s u a beats w bytes taken out apart rfl
  refine ⟨fun waits => exec_out taken out apart ?_, fun h reads isOpen window => exec_out taken out apart ?_⟩
  · exact outOfSequence_wait (s := s.atPort (.write a beats)) waits _
  · have noHold : s.hold = none := noHold_of_taken taken
    rw [outOfSequence_open (s := s.atPort (.write a beats)) reads isOpen window noHold, ← abandoned_withPort]
    rfl

theorem opened_of_noStory {s : State} {w : WindowId} (noStory : (s.window w).stories = []) (h : HandleId) (b after : Addr) :
    ((opened s w h b).onWindow w fun k => { k with intake := after }) =
      (({ s with completion := s.completion.erase h } : State).onStory h fun r =>
        { generation := r.generation + 1, state := .opened, window := w, agency := s.windowAgency w
          origin := b }).onWindow w fun k =>
        { k with stories := [h], parse := .lead, lead := [], textCount := 0, extents := [], intake := after } := by
  unfold opened
  rw [onWindow_onWindow]
  refine onWindow_congr _ ?_
  rw [window_onStory, show (({ s with completion := s.completion.erase h } : State).window w).stories = [] from noStory]
  rfl

/-- Settles O42: the one START byte of a window that hunts. -/
theorem startOpensStory : Obligations.StartOpensStory := by
  refine ⟨?_, fun s => ⟨fun h free lowest => entryToGive_eq_of_free free lowest, entryToGive_eq_of_noFree⟩⟩
  intro s a b beats w h form now enabled untouched outside window noStory hunts one intake
  have taken : IntakeTaken s w a beats [(b, 0x01)] := ⟨form, now, enabled, untouched, outside, window, one⟩
  have inSequence : s.inSequence w [(b, 0x01)] = true := by
    unfold State.inSequence
    rw [intake]
    simp [contiguous]
  refine ⟨fun full => ?_, fun give => ?_⟩
  · exact exec_table taken (before := []) rfl inSequence (Or.inl noStory) (t := { s with ownWait := waited s }) rfl
      (Or.inl hunts) full
  · have read : BytesRead w [(b, 0x01)] { s with ownWait := waited s } (opened { s with ownWait := waited s } w h b) := by
      refine ⟨_, ?_, rfl⟩
      unfold ByteRead
      rw [show (({ s with ownWait := waited s } : State).window w).parse = .hunt from hunts]
      exact (if_pos rfl).mpr ⟨h, give, rfl⟩
    rw [exec_read taken inSequence (Or.inl noStory) read]
    exact congrArg
      (fun t => Host.Outcome.next (((forwarded t (.write a (beats.map (s.translateBeat w))) .write).testFlags).testRooms))
      (opened_of_noStory (s := { s with ownWait := waited s }) noStory h b (s.nextInWindow w b))

end Sys2Proof.Machine
end

section
/-!
PROOFS. The check of a lead by its fields (R43, Table 3-4).
-/

namespace Sys2Proof.Machine

open Sys2Proof.Claims

/-! ### Splitting at a byte -/

section

variable {sep : Byte}

theorem splitAtByte_sep (rest : List Byte) : splitAtByte sep (sep :: rest) = [] :: splitAtByte sep rest := if_pos rfl

theorem splitAtByte_other {b : Byte} (other : b ≠ sep) {rest part : List Byte} {parts : List (List Byte)}
    (split : splitAtByte sep rest = part :: parts) : splitAtByte sep (b :: rest) = (b :: part) :: parts := by
  rw [splitAtByte, if_neg other, split]

theorem exists_splitAtByte (l : List Byte) : ∃ part parts, splitAtByte sep l = part :: parts := by
  induction l with
  | nil => exact ⟨[], [], rfl⟩
  | cons b rest ih =>
    obtain ⟨part, parts, split⟩ := ih
    by_cases b = sep
    case pos same => exact ⟨[], splitAtByte sep rest, same ▸ splitAtByte_sep rest⟩
    case neg other => exact ⟨b :: part, parts, splitAtByte_other other split⟩

/-- One part more than there are occurrences. -/
theorem length_splitAtByte (l : List Byte) : (splitAtByte sep l).length = l.count sep + 1 := by
  induction l with
  | nil => rfl
  | cons b rest ih =>
    by_cases b = sep
    case pos same =>
      subst same
      rw [splitAtByte_sep, List.length_cons, ih, List.count_cons_self]
    case neg other =>
      obtain ⟨part, parts, split⟩ := exists_splitAtByte (sep := sep) rest
      rw [splitAtByte_other other split, List.count_cons_of_ne other, ← ih, split, List.length_cons, List.length_cons]

theorem splitAtByte_of_not_mem {l : List Byte} (absent : sep ∉ l) : splitAtByte sep l = [l] := by
  induction l with
  | nil => rfl
  | cons b rest ih =>
    obtain ⟨other, absent⟩ := not_or.mp (mt List.mem_cons.mpr absent)
    exact splitAtByte_other (Ne.symm other) (ih absent)

theorem splitAtByte_append {l : List Byte} (absent : sep ∉ l) (rest : List Byte) :
    splitAtByte sep (l ++ sep :: rest) = l :: splitAtByte sep rest := by
  induction l with
  | nil => exact splitAtByte_sep rest
  | cons b l ih =>
    obtain ⟨other, absent⟩ := not_or.mp (mt List.mem_cons.mpr absent)
    exact splitAtByte_other (Ne.symm other) (ih absent)

/-- The parts with the byte between them are the list. -/
theorem intercalate_splitAtByte (l : List Byte) : [sep].intercalate (splitAtByte sep l) = l := by
  induction l with
  | nil => rfl
  | cons b rest ih =>
    obtain ⟨part, parts, split⟩ := exists_splitAtByte (sep := sep) rest
    by_cases b = sep
    case pos same =>
      subst same
      rw [splitAtByte_sep, split]
      rw [split] at ih
      rw [List.intercalate_cons_cons, ih]
      rfl
    case neg other =>
      rw [splitAtByte_other other split]
      rw [split] at ih
      rw [← ih]
      cases parts <;> rfl

/-- Parts without the byte are found again. -/
theorem splitAtByte_intercalate {parts : List (List Byte)} (nonempty : parts ≠ []) (absent : ∀ p ∈ parts, sep ∉ p) :
    splitAtByte sep ([sep].intercalate parts) = parts := by
  induction parts with
  | nil => exact absurd rfl nonempty
  | cons p parts ih =>
    obtain ⟨here, rest⟩ := List.forall_mem_cons.mp absent
    cases parts with
    | nil =>
      rw [List.intercalate_singleton]
      exact splitAtByte_of_not_mem here
    | cons q parts =>
      rw [List.intercalate_cons_cons, List.append_assoc, List.singleton_append, splitAtByte_append here,
        ih nofun rest]

end

/-! ### Numbers -/

/-- A digit, 30h to 39h. -/
def IsDigit (b : Byte) : Prop := 0x30 ≤ b.toNat ∧ b.toNat ≤ 0x39

/-- The number that digits write, behind the number that stands. -/
def digitsFrom (n : Nat) (f : List Byte) : Nat := f.foldl (fun m b => 10 * m + (b.toNat - 0x30)) n

theorem digitValue_eq_some_iff (b : Byte) (v : Nat) : digitValue b = some v ↔ IsDigit b ∧ v = b.toNat - 0x30 := by
  unfold digitValue
  split
  case isTrue digit => exact ⟨fun e => ⟨digit, (Option.some.inj e).symm⟩, fun e => congrArg some e.2.symm⟩
  case isFalse other => exact ⟨nofun, fun e => absurd e.1 other⟩

theorem numberFrom_eq_some_iff (f : List Byte) (m n : Nat) :
    numberFrom m f = some n ↔ (∀ b ∈ f, IsDigit b) ∧ n = digitsFrom m f := by
  induction f generalizing m with
  | nil =>
    refine ⟨fun e => ⟨nofun, (Option.some.inj e).symm⟩, fun e => congrArg some e.2.symm⟩
  | cons b rest ih =>
    cases digit : digitValue b with
    | none =>
      rw [numberFrom, digit]
      refine ⟨nofun, fun ⟨all, _⟩ => ?_⟩
      have := (digitValue_eq_some_iff b _).mpr ⟨all b List.mem_cons_self, rfl⟩
      rw [digit] at this
      cases this
    | some v =>
      obtain ⟨isDigit, rfl⟩ := (digitValue_eq_some_iff b v).mp digit
      rw [numberFrom, digit]
      dsimp only
      rw [ih, List.forall_mem_cons]
      exact ⟨fun ⟨all, e⟩ => ⟨⟨isDigit, all⟩, e⟩, fun ⟨all, e⟩ => ⟨all.2, e⟩⟩

theorem digitsFrom_lt {f : List Byte} (digits : ∀ b ∈ f, IsDigit b) (m : Nat) :
    digitsFrom m f < (m + 1) * 10 ^ f.length := by
  induction f generalizing m with
  | nil => simp [digitsFrom]
  | cons b rest ih =>
    obtain ⟨⟨low, high⟩, digits⟩ := List.forall_mem_cons.mp digits
    calc digitsFrom m (b :: rest) < (10 * m + (b.toNat - 0x30) + 1) * 10 ^ rest.length := ih digits _
      _ ≤ ((m + 1) * 10) * 10 ^ rest.length := Nat.mul_le_mul_right _ (by omega)
      _ = (m + 1) * 10 ^ (b :: rest).length := by rw [List.length_cons, Nat.pow_succ', Nat.mul_assoc]

theorem numberOf_eq_some_iff (k n : Nat) (f : List Byte) :
    numberOf k f = some n ↔ 1 ≤ f.length ∧ f.length ≤ k ∧ (∀ b ∈ f, IsDigit b) ∧ n = digitsFrom 0 f := by
  unfold numberOf
  split
  case isTrue fits => rw [numberFrom_eq_some_iff, ← and_assoc, and_iff_right fits]
  case isFalse other => exact ⟨nofun, fun ⟨low, high, _⟩ => absurd ⟨low, high⟩ other⟩

theorem numberOf_lt {k n : Nat} {f : List Byte} (number : numberOf k f = some n) : n < 10 ^ k := by
  obtain ⟨-, short, digits, rfl⟩ := (numberOf_eq_some_iff k n f).mp number
  calc digitsFrom 0 f < (0 + 1) * 10 ^ f.length := digitsFrom_lt digits 0
    _ ≤ 10 ^ k := by
      rw [Nat.zero_add, Nat.one_mul]
      exact Nat.pow_le_pow_right (by decide) short

theorem comma_not_mem_of_number {k n : Nat} {f : List Byte} (number : numberOf k f = some n) : houseComma ∉ f := by
  obtain ⟨-, -, digits, -⟩ := (numberOf_eq_some_iff k n f).mp number
  intro mem
  exact absurd (digits houseComma mem).1 (by decide)

/-! ### Letters -/

theorem eq_singleton_of_map_toNat {f : List Byte} {n : Nat} (e : f.map BitVec.toNat = [n]) : f = [BitVec.ofNat 8 n] := by
  obtain ⟨b, rfl, rfl⟩ := List.map_eq_singleton_iff.mp e
  rw [BitVec.ofNat_toNat, BitVec.setWidth_eq]

theorem classOf_eq_some_iff (f : List Byte) (c : StoryClass) : classOf f = some c ↔ f = [classLetter c] := by
  refine ⟨fun e => ?_, fun e => ?_⟩
  · unfold classOf at e
    split at e <;> cases e
    all_goals
      rename_i letter
      exact eq_singleton_of_map_toNat letter
  · subst e
    cases c <;> rfl

theorem modeOf_eq_some_iff (f : List Byte) (m : StoryMode) : modeOf f = some m ↔ f = [modeLetter m] := by
  refine ⟨fun e => ?_, fun e => ?_⟩
  · unfold modeOf at e
    split at e <;> cases e
    all_goals
      rename_i letter
      exact eq_singleton_of_map_toNat letter
  · subst e
    cases m <;> rfl

/-! ### The desk selector -/

theorem deskOfNumber_eq_some_iff (n : Nat) (d : DeskId) : deskOfNumber n = some d ↔ n = d.val + 1 := by
  unfold deskOfNumber
  split
  next inside =>
    rw [Option.some.injEq, Fin.ext_iff]
    show n - 1 = d.val ↔ n = d.val + 1
    omega
  next outside => exact iff_of_false nofun (by omega)

theorem deskSet_eq_some_iff (items : List (List Byte)) (set : List DeskId) :
    deskSet items = some set ↔ set.Nodup ∧ items.map (numberOf 2) = set.map fun d => some (d.val + 1) := by
  induction items generalizing set with
  | nil =>
    refine ⟨?_, ?_⟩
    · rintro ⟨⟩
      exact ⟨List.nodup_nil, rfl⟩
    · rintro ⟨-, e⟩
      rw [List.map_eq_nil_iff.mp e.symm]
      rfl
  | cons item rest ih =>
    have first : ∀ d, (numberOf 2 item).bind deskOfNumber = some d ↔ numberOf 2 item = some (d.val + 1) := fun d => by
      simp [Option.bind_eq_some_iff, deskOfNumber_eq_some_iff]
    refine ⟨fun e => ?_, fun ⟨nodup, e⟩ => ?_⟩
    · unfold deskSet at e
      split at e
      case h_1 d more desk rested =>
        split at e
        · cases e
        next fresh =>
          cases e
          obtain ⟨nodup, map⟩ := (ih more).mp rested
          refine ⟨List.nodup_cons.mpr ⟨by simpa using fresh, nodup⟩, ?_⟩
          rw [List.map_cons, List.map_cons, (first d).mp desk, map]
      case h_2 => cases e
    · cases set with
      | nil => cases e
      | cons d more =>
        obtain ⟨fresh, nodup⟩ := List.nodup_cons.mp nodup
        obtain ⟨desk, map⟩ := List.cons.inj e
        unfold deskSet
        rw [(first d).mpr desk, (ih more).mpr ⟨nodup, map⟩]
        exact if_neg (by simpa using fresh)

theorem selectorOf_eq_all_iff (f : List Byte) : selectorOf f = some .all ↔ numberOf 2 f = some 0 := by
  unfold selectorOf
  split
  case isTrue zero => exact iff_of_true rfl zero
  case isFalse other =>
    refine iff_of_false (fun e => ?_) other
    obtain ⟨_, _, ⟨⟩⟩ := Option.map_eq_some_iff.mp e

theorem selectorOf_eq_desks_iff (f : List Byte) (set : List DeskId) : selectorOf f = some (.desks set) ↔
    ∃ items : List (List Byte), items ≠ [] ∧ f = [0x2C].intercalate items ∧ set.Nodup ∧
      items.map (numberOf 2) = set.map fun d => some (d.val + 1) := by
  refine ⟨fun e => ?_, fun ⟨items, nonempty, joined, nodup, map⟩ => ?_⟩
  · unfold selectorOf at e
    split at e
    · cases e
    obtain ⟨_, desks, ⟨⟩⟩ := Option.map_eq_some_iff.mp e
    obtain ⟨part, parts, split⟩ := exists_splitAtByte (sep := houseComma) f
    refine ⟨splitAtByte houseComma f, by rw [split]; nofun, (intercalate_splitAtByte f).symm, ?_⟩
    exact (deskSet_eq_some_iff _ set).mp desks
  · have number : ∀ p ∈ items, ∃ n, numberOf 2 p = some (n + 1) := fun p mem => by
      have found : numberOf 2 p ∈ set.map fun d => some (d.val + 1) := map ▸ List.mem_map_of_mem mem
      obtain ⟨d, -, e⟩ := List.mem_map.mp found
      exact ⟨d.val, e.symm⟩
    have split : splitAtByte houseComma f = items := by
      rw [joined]
      refine splitAtByte_intercalate nonempty fun p mem => ?_
      obtain ⟨n, e⟩ := number p mem
      exact comma_not_mem_of_number e
    have other : numberOf 2 f ≠ some 0 := fun zero => by
      have alone := splitAtByte_of_not_mem (comma_not_mem_of_number zero)
      obtain ⟨n, e⟩ := number f (by rw [← split, alone]; exact List.mem_singleton_self f)
      rw [zero] at e
      cases e
    unfold selectorOf
    rw [if_neg other, split, (deskSet_eq_some_iff items set).mpr ⟨nodup, map⟩]
    rfl

/-! ### Slug, reference and embargo -/

theorem slugOf_eq_some_iff (f g : List Byte) :
    slugOf f = some g ↔ g = f ∧ f.length ≤ 24 ∧ ∀ b ∈ f, 0x20 ≤ b.toNat ∧ b.toNat ≤ 0x7E := by
  unfold slugOf
  simp only [List.all_eq_true, decide_eq_true_eq]
  split
  case isTrue form => exact ⟨fun e => ⟨(Option.some.inj e).symm, form⟩, fun e => congrArg some e.1.symm⟩
  case isFalse other => exact ⟨nofun, fun e => absurd e.2 other⟩

theorem referenceOf_new_iff (f : List Byte) (x : Option Nat) : referenceOf .new f = some x ↔ f = [] ∧ x = none := by
  unfold referenceOf
  dsimp only
  split
  case isTrue empty => exact ⟨fun e => ⟨empty, (Option.some.inj e).symm⟩, fun e => congrArg some e.2.symm⟩
  case isFalse other => exact ⟨nofun, fun e => absurd e.1 other⟩

theorem referenceOf_serial_iff {m : StoryMode} (serial : m ≠ .new) (f : List Byte) (x : Option Nat) :
    referenceOf m f = some x ↔ ∃ n, x = some n ∧ numberOf 4 f = some n := by
  have mapped : referenceOf m f = (numberOf 4 f).map some := by
    cases m with
    | new => exact absurd rfl serial
    | writeThru => rfl
    | kill => rfl
  rw [mapped, Option.map_eq_some_iff]
  exact ⟨fun ⟨n, e, same⟩ => ⟨n, same.symm, e⟩, fun ⟨n, same, e⟩ => ⟨n, e, same.symm⟩⟩

theorem embargoOf_form {f : List Byte} {x : Option Nat} (embargo : embargoOf f = some x) :
    f = [] ∧ x = none ∨ f.length = 4 ∧ ∀ b ∈ f, IsDigit b := by
  unfold embargoOf at embargo
  split at embargo
  next empty => exact Or.inl ⟨empty, (Option.some.inj embargo).symm⟩
  split at embargo
  next four =>
    split at embargo
    · cases embargo
    next number => exact Or.inr ⟨four, ((numberFrom_eq_some_iff f _ _).mp number).1⟩
  · cases embargo

theorem digit_byte (p : Fin 10) : (byte (0x30 + p.val)).toNat = 0x30 + p.val := by
  rw [byte, BitVec.toNat_ofNat]
  omega

theorem embargoOf_digits (p q r t : Fin 10) :
    embargoOf [byte (0x30 + p.val), byte (0x30 + q.val), byte (0x30 + r.val), byte (0x30 + t.val)] =
      if 10 * p.val + q.val ≤ 23 ∧ 10 * r.val + t.val ≤ 59 then
        some (some ((10 * p.val + q.val) * 60 + (10 * r.val + t.val)))
      else none := by
  have number : numberFrom 0 [byte (0x30 + p.val), byte (0x30 + q.val), byte (0x30 + r.val), byte (0x30 + t.val)] =
      some ((10 * p.val + q.val) * 100 + (10 * r.val + t.val)) := by
    refine (numberFrom_eq_some_iff _ _ _).mpr ⟨?_, ?_⟩
    · simp only [List.forall_mem_cons, IsDigit, digit_byte]
      refine ⟨by omega, by omega, by omega, by omega, nofun⟩
    · simp only [digitsFrom, List.foldl_cons, List.foldl_nil, digit_byte]
      omega
  unfold embargoOf
  rw [if_neg nofun, if_pos (show List.length [_, _, _, _] = 4 from rfl), number]
  dsimp only
  rw [show ((10 * p.val + q.val) * 100 + (10 * r.val + t.val)) / 100 = 10 * p.val + q.val from by omega,
    show ((10 * p.val + q.val) * 100 + (10 * r.val + t.val)) % 100 = 10 * r.val + t.val from by omega]

/-! ### The fields in order -/

theorem checkFields_ne_fieldCount (f1 f2 f3 f4 f5 f6 f7 : List Byte) :
    checkFields f1 f2 f3 f4 f5 f6 f7 ≠ .error .fieldCount := by
  unfold checkFields
  repeat' split
  all_goals nofun

theorem checkLead_eq_fieldCount_iff (lead : List Byte) : checkLead lead = .error .fieldCount ↔ lead.count 0x1F ≠ 6 := by
  have length := length_splitAtByte (sep := houseFs) lead
  unfold checkLead
  split
  next f1 f2 f3 f4 f5 f6 f7 split =>
    rw [split] at length
    exact iff_of_false (checkFields_ne_fieldCount f1 f2 f3 f4 f5 f6 f7) (not_not.mpr (Nat.succ.inj length).symm)
  next other =>
    refine iff_of_true rfl fun six => ?_
    rw [show lead.count houseFs = 6 from six] at length
    match splitAtByte houseFs lead, length, other with
    | [f1, f2, f3, f4, f5, f6, f7], _, other => exact other f1 f2 f3 f4 f5 f6 f7 rfl

theorem checkLead_fields {f1 f2 f3 f4 f5 f6 f7 : List Byte}
    (whole : ∀ f ∈ [f1, f2, f3, f4, f5, f6, f7], (0x1F : Byte) ∉ f) :
    checkLead (f1 ++ 0x1F :: f2 ++ 0x1F :: f3 ++ 0x1F :: f4 ++ 0x1F :: f5 ++ 0x1F :: f6 ++ 0x1F :: f7) =
      checkFields f1 f2 f3 f4 f5 f6 f7 := by
  have split : splitAtByte houseFs
      (f1 ++ 0x1F :: f2 ++ 0x1F :: f3 ++ 0x1F :: f4 ++ 0x1F :: f5 ++ 0x1F :: f6 ++ 0x1F :: f7) =
      [f1, f2, f3, f4, f5, f6, f7] := by
    simp only [List.append_assoc, List.cons_append]
    have absent : ∀ f ∈ [f1, f2, f3, f4, f5, f6, f7], houseFs ∉ f := whole
    simp only [List.forall_mem_cons] at absent
    obtain ⟨a1, a2, a3, a4, a5, a6, a7, -⟩ := absent
    rw [← show houseFs = 0x1F from rfl, splitAtByte_append a1, splitAtByte_append a2, splitAtByte_append a3,
      splitAtByte_append a4, splitAtByte_append a5, splitAtByte_append a6, splitAtByte_of_not_mem a7]
  unfold checkLead
  rw [split]

/-- Settles O43: the split at the FS bytes, and each field's form. -/
theorem leadCheckedByFields : Obligations.LeadCheckedByFields := by
  refine ⟨checkLead_eq_fieldCount_iff, fun f1 f2 f3 f4 f5 f6 f7 whole => ?_, fun k n f number => ?_,
    fun k n f => numberOf_eq_some_iff k n f, classOf_eq_some_iff, modeOf_eq_some_iff,
    fun f => ⟨selectorOf_eq_all_iff f, selectorOf_eq_desks_iff f⟩, slugOf_eq_some_iff,
    fun f x => ⟨referenceOf_new_iff f x, fun m serial => referenceOf_serial_iff serial f x⟩,
    fun f x embargo => embargoOf_form embargo, rfl, embargoOf_digits⟩
  · rw [checkLead_fields whole]
    unfold checkFields
    cases numberOf 4 f1 with
    | none => rfl
    | some serial =>
    cases classOf f2 with
    | none => rfl
    | some cls =>
    cases selectorOf f3 with
    | none => rfl
    | some selector =>
    cases slugOf f4 with
    | none => rfl
    | some slug =>
    cases modeOf f5 with
    | none => rfl
    | some mode =>
    dsimp only
    cases referenceOf mode f6 with
    | none => rfl
    | some reference => cases embargoOf f7 <;> rfl
  · obtain ⟨low, high, digits, -⟩ := (numberOf_eq_some_iff k n f).mp number
    exact ⟨low, high, numberOf_lt number, digits⟩

end Sys2Proof.Machine
end

section
/-!
PROOFS. Cut orders (R119, R120), and what is done at one desk of a write-through, an agency kill or the host's KILL by the
target's mark there (R72, R74, R76, R90, R91).
-/

namespace Sys2Proof.Machine

open Sys2Proof.Claims

/-! ### Cut orders (R119, R120) -/

theorem isStory_eq_true_iff (c : SendContext) (h : HandleId) : c.isStory h = true ↔ c.handle = h ∧ c.kind = .story :=
  decide_eq_true_iff

theorem cutOrder_current {s : State} {d : DeskId} {c : SendContext} {h : HandleId} (context : (s.desk d).context = some c)
    (handle : c.handle = h) (kind : c.kind = .story) (notice : NoticeKind) (follow : Option HandleId) :
    s.cutOrder d h notice follow = s.cutCurrent d c notice follow := by
  have story : c.isStory h = true := (isStory_eq_true_iff c h).mpr ⟨handle, kind⟩
  unfold State.cutOrder
  rw [context]
  cases (s.desk d).saved <;> exact if_pos story

theorem cutOrder_saved {s : State} {d : DeskId} {x : SavedContext} (saved : (s.desk d).saved = some x)
    (other : ∀ c, (s.desk d).context = some c → c.handle ≠ x.handle ∨ c.kind ≠ .story) (notice : NoticeKind)
    (follow : Option HandleId) : s.cutOrder d x.handle notice follow = s.cutSaved d x notice follow := by
  unfold State.cutOrder
  rw [saved]
  cases context : (s.desk d).context with
  | none => exact if_pos rfl
  | some c =>
    have no : ¬ c.isStory x.handle = true := fun yes => by
      obtain ⟨handle, kind⟩ := (isStory_eq_true_iff c x.handle).mp yes
      exact (other c context).elim (fun ne => ne handle) fun ne => ne kind
    exact (if_neg no).trans (if_pos rfl)

/-- STORY_CUT of a story, its mark and desk having changed since (R188). -/
theorem reportStory_marked (s : State) (d e : DeskId) (f : Desk → Desk) (h : HandleId) (m : Mark) (k : ReportKind)
    (subject : Byte) (g : HandleId) (detail : List Byte) :
    (((s.onDesk d f).setMark h e m).reportStory k subject g detail) =
      ((s.onDesk d f).setMark h e m).report (naming s k subject g detail) := by
  have same : SameText s ((s.onDesk d f).setMark h e m) := ((SameText.refl s).onDesk d f).setMark h e m
  rw [← naming_congr same rfl]
  rfl

theorem followOnByte_eq (x : Option HandleId) : followOnByte x = followByte x := by
  cases x <;> rfl

/-- The class that a follow-on takes is its story's, which a cut leaves. -/
theorem followOn_congr {s t : State} (same : SameText s t) (w : HandleId) :
    t.followOn w = { handle := w, cls := (s.story w).cls } := by
  obtain ⟨holders, marks, story⟩ := same.2 w
  unfold State.followOn
  rw [story]

theorem storyEntry_congr {s t : State} (same : SameText s t) (w : HandleId) : t.storyEntry w = entryOf s w := by
  obtain ⟨holders, marks, story⟩ := same.2 w
  unfold State.storyEntry entryOf
  rw [story]

theorem directFollow_none (d : DeskId) (u : State) : directFollow d none u = u := onDesk_self _ rfl

theorem savedFollow_none (d : DeskId) (u : State) : savedFollow d none u = u := onDesk_self _ rfl

section

variable {s u : State} {d : DeskId} (same : SameText s u)
include same

theorem directFollow_some (w : HandleId) : directFollow d (some w) u =
    (tookIn u d w).onDesk d fun k => { k with directNext := some { handle := w, cls := (s.story w).cls } } := by
  rw [← followOn_congr same w]
  rfl

theorem savedFollow_some (w : HandleId) : savedFollow d (some w) u =
    (tookIn u d w).onDesk d fun k => { k with savedFollowOn := some { handle := w, cls := (s.story w).cls } } := by
  rw [← followOn_congr same w]
  rfl

end

/-- A cut of the current item, up to its notice (R119). -/
theorem cutCurrent_of {s u v : State} {d : DeskId} {c : SendContext} {notice : NoticeKind} {follow : Option HandleId}
    (isCut : u = ((s.onDesk d stopped).setMark c.handle d .cut).report
      (naming s .storyCut (byte (d.val + 1)) c.handle [byte notice.code, 0, byte c.segment.code, followByte follow]))
    (alone : follow = none → v = u)
    (followed : ∀ w, follow = some w → v = (tookIn u d w).onDesk d fun k =>
      { k with directNext := some { handle := w, cls := (s.story w).cls } }) :
    s.cutCurrent d c notice follow = v.beginNext d c (.notice notice c.handle .finish) ∧ v.setup = s.setup := by
  have same : SameText s u := by
    rw [isCut]
    exact (((SameText.refl s).onDesk d stopped).setMark c.handle d .cut).report _
  have placed : directFollow d follow u = v := by
    cases follow with
    | none => exact (directFollow_none d u).trans (alone rfl).symm
    | some w => exact (directFollow_some same w).trans (followed w rfl).symm
  have setup : v.setup = s.setup := by
    rw [← placed, ← same.1]
    cases follow <;> rfl
  refine ⟨?_, setup⟩
  rw [cutCurrent_eq, reportStory_marked, followOnByte_eq, ← placed, isCut]
  rfl

/-- A cut of the saved context (R120). -/
theorem cutSaved_of {s u : State} {d : DeskId} {x : SavedContext} {notice : NoticeKind} {follow : Option HandleId}
    (isCut : u = ((s.onDesk d fun k => { k with saved := some { x with cutNotice := some notice } }).setMark x.handle d
      .cut).report (naming s .storyCut (byte (d.val + 1)) x.handle [byte notice.code, 1, byte x.resume.code,
        followByte follow])) :
    s.cutSaved d x notice follow = savedFollow d follow u ∧ SameText s u := by
  refine ⟨?_, ?_⟩
  · rw [cutSaved_eq, reportStory_marked, followOnByte_eq, isCut]
    rfl
  · rw [isCut]
    exact (((SameText.refl s).onDesk d _).setMark x.handle d .cut).report _

/-! ### Removal and replacement (R90, R91) -/

theorem namesFollowOn_eq_true_iff (f : Option FollowOn) (h : HandleId) : namesFollowOn f h = true ↔ Follows f h := by
  unfold namesFollowOn Follows
  simp

theorem ite_names {α : Type} {f : Option FollowOn} {h : HandleId} (names : Follows f h) (a b : α) :
    (if namesFollowOn f h then a else b) = a := if_pos ((namesFollowOn_eq_true_iff f h).mpr names)

theorem ite_not_names {α : Type} {f : Option FollowOn} {h : HandleId} (other : ¬ Follows f h) (a b : α) :
    (if namesFollowOn f h then a else b) = b := if_neg (mt (namesFollowOn_eq_true_iff f h).mp other)

section

variable {s : State} {d : DeskId} {t : HandleId}

theorem removeEntry_direct (direct : Follows (s.desk d).directNext t) :
    s.removeEntry d t = gaveUp (s.onDesk d fun k => { k with directNext := none }) d t :=
  congrArg (fun u => gaveUp u d t) (onDesk_congr s (ite_names direct _ _))

theorem replaceEntry_direct (direct : Follows (s.desk d).directNext t) (w : HandleId) :
    s.replaceEntry d t w = tookIn (gaveUp (s.onDesk d fun k =>
      { k with directNext := some { handle := w, cls := (s.story w).cls } }) d t) d w :=
  congrArg (fun u => tookIn (gaveUp u d t) d w)
    (onDesk_congr s (ite_names direct _ _))

variable (notDirect : ¬ Follows (s.desk d).directNext t)
include notDirect

theorem removeEntry_saved (saved : Follows (s.desk d).savedFollowOn t) :
    s.removeEntry d t = gaveUp (s.onDesk d fun k => { k with savedFollowOn := none }) d t :=
  congrArg (fun u => gaveUp u d t) (onDesk_congr s ((ite_not_names notDirect _ _).trans (ite_names saved _ _)))

theorem replaceEntry_saved (saved : Follows (s.desk d).savedFollowOn t) (w : HandleId) :
    s.replaceEntry d t w = tookIn (gaveUp (s.onDesk d fun k =>
      { k with savedFollowOn := some { handle := w, cls := (s.story w).cls } }) d t) d w :=
  congrArg (fun u => tookIn (gaveUp u d t) d w)
    (onDesk_congr s ((ite_not_names notDirect _ _).trans (ite_names saved _ _)))

variable (notSaved : ¬ Follows (s.desk d).savedFollowOn t)
include notSaved

theorem removeEntry_queued : s.removeEntry d t =
    gaveUp (s.onDesk d fun k => { k with queue := k.queue.filter fun e => decide (e.handle ≠ t) }) d t :=
  congrArg (fun u => gaveUp u d t) (onDesk_congr s ((ite_not_names notDirect _ _).trans (ite_not_names notSaved _ _)))

theorem replaceEntry_queued (w : HandleId) : s.replaceEntry d t w = tookIn (gaveUp (s.onDesk d fun k =>
    { k with queue := k.queue.map fun e => if e.handle = t then entryOf s w else e }) d t) d w :=
  congrArg (fun u => tookIn (gaveUp u d t) d w)
    (onDesk_congr s ((ite_not_names notDirect _ _).trans (ite_not_names notSaved _ _)))

end

theorem sameText_removeEntry (s : State) (d : DeskId) (t : HandleId) : SameText s (s.removeEntry d t) :=
  (((SameText.refl s).onDesk d _).releaseHolder t).setMark t d .dropped

/-! ### What is done at one desk, by the target's mark there (R72, R74, R76) -/

section

variable {s : State} {d : DeskId}

theorem placeWriteThruAt_closed (closed : (s.desk d).isOpen = false) (w t : HandleId) :
    State.placeWriteThruAt w t s d = s := by
  unfold State.placeWriteThruAt
  exact if_neg (by rw [closed]; exact Bool.false_ne_true)

theorem placeKillAt_closed (closed : (s.desk d).isOpen = false) (w t : HandleId) : State.placeKillAt w t s d = s := by
  unfold State.placeKillAt
  exact if_neg (by rw [closed]; exact Bool.false_ne_true)

section

variable (isOpen : (s.desk d).isOpen = true) (w : HandleId) {t : HandleId}
include isOpen

theorem placeWriteThruAt_queued (mark : s.markAt t d = .queued) : State.placeWriteThruAt w t s d =
    if (s.story w).cls = (s.story t).cls then s.replaceEntry d t w
    else (s.removeEntry d t).insertEntry d (entryOf s w) := by
  unfold State.placeWriteThruAt
  rw [if_pos isOpen, mark]
  dsimp only
  rw [storyEntry_congr (sameText_removeEntry s d t)]

theorem placeWriteThruAt_active (mark : s.markAt t d = .active) :
    State.placeWriteThruAt w t s d = s.cutOrder d t .correction (some w) := by
  unfold State.placeWriteThruAt
  rw [if_pos isOpen, mark]

theorem placeWriteThruAt_done (mark : s.markAt t d = .done) :
    State.placeWriteThruAt w t s d = s.insertEntry d (entryOf s w) := by
  unfold State.placeWriteThruAt
  rw [if_pos isOpen, mark]
  rfl

theorem placeWriteThruAt_other (mark : s.markAt t d = .absent ∨ s.markAt t d = .dropped ∨ s.markAt t d = .cut) :
    State.placeWriteThruAt w t s d = s.placeNewAt w d := by
  unfold State.placeWriteThruAt
  rw [if_pos isOpen]
  rcases mark with mark | mark | mark
  all_goals rw [mark]

theorem placeKillAt_queued (mark : s.markAt t d = .queued) : State.placeKillAt w t s d = s.removeEntry d t := by
  unfold State.placeKillAt
  rw [if_pos isOpen, mark]

theorem placeKillAt_active (mark : s.markAt t d = .active) :
    State.placeKillAt w t s d = s.cutOrder d t .kill (some w) := by
  unfold State.placeKillAt
  rw [if_pos isOpen, mark]

theorem placeKillAt_done (mark : s.markAt t d = .done) :
    State.placeKillAt w t s d = s.insertEntry d (entryOf s w) := by
  unfold State.placeKillAt
  rw [if_pos isOpen, mark]
  rfl

theorem placeKillAt_other (mark : s.markAt t d = .absent ∨ s.markAt t d = .dropped ∨ s.markAt t d = .cut) :
    State.placeKillAt w t s d = s := by
  unfold State.placeKillAt
  rw [if_pos isOpen]
  rcases mark with mark | mark | mark
  all_goals rw [mark]

end

variable {t : HandleId}

theorem hostKillAt_queued (mark : s.markAt t d = .queued) : State.hostKillAt t s d = s.removeEntry d t := by
  unfold State.hostKillAt
  rw [mark]

theorem hostKillAt_active (mark : s.markAt t d = .active) : State.hostKillAt t s d = s.cutOrder d t .kill none := by
  unfold State.hostKillAt
  rw [mark]

theorem hostKillAt_done (mark : s.markAt t d = .done) : State.hostKillAt t s d =
    if (s.desk d).isOpen then s.insertEntry d { handle := t, kind := .killNotice, cls := .bulletin } else s := by
  unfold State.hostKillAt
  rw [mark]

theorem hostKillAt_other (mark : s.markAt t d = .absent ∨ s.markAt t d = .dropped ∨ s.markAt t d = .cut) :
    State.hostKillAt t s d = s := by
  unfold State.hostKillAt
  rcases mark with mark | mark | mark
  all_goals rw [mark]

end

/-! ### The clauses of cut orders and placement -/

/-- A cut order against the current item (R119). -/
theorem cutOrder_current_clause (s u v : State) (d : DeskId) (c : SendContext) (notice : NoticeKind)
    (follow : Option HandleId) (context : (s.desk d).context = some c) (kind : c.kind = .story)
    (isCut : u = ((s.onDesk d stopped).setMark c.handle d .cut).report
      (naming s .storyCut (byte (d.val + 1)) c.handle [byte notice.code, 0, byte c.segment.code, followByte follow]))
    (alone : follow = none → v = u)
    (followed : ∀ w, follow = some w → v = (tookIn u d w).onDesk d fun k =>
      { k with directNext := some { handle := w, cls := (s.story w).cls } }) :
    (∀ y, goesOn v d c (.notice notice c.handle .finish) y →
      s.cutOrder d c.handle notice follow = v.onDesk d fun k => { k with context := some y }) ∧
    (LeftOut s notice → s.cutOrder d c.handle notice follow =
      (v.onStory c.handle fun r => { r with holders := r.holders - 1 }).onDesk d fun k => { k with context := none }) := by
  obtain ⟨cut, setup⟩ := cutCurrent_of isCut alone followed
  rw [cutOrder_current context rfl kind, cut]
  refine ⟨fun y on => beginNext_goesOn on, fun out => ?_⟩
  exact beginNext_endsAt (endsAt_notice c.handle ((leftOut_congr setup notice).mpr out))

/-- A cut order against the saved context (R120). -/
theorem cutOrder_saved_clause (s u : State) (d : DeskId) (x : SavedContext) (notice : NoticeKind)
    (follow : Option HandleId) (saved : (s.desk d).saved = some x)
    (other : ∀ c, (s.desk d).context = some c → c.handle ≠ x.handle ∨ c.kind ≠ .story)
    (isCut : u = ((s.onDesk d fun k => { k with saved := some { x with cutNotice := some notice } }).setMark x.handle d
      .cut).report (naming s .storyCut (byte (d.val + 1)) x.handle [byte notice.code, 1, byte x.resume.code,
        followByte follow])) :
    (follow = none → s.cutOrder d x.handle notice follow = u) ∧
    (∀ w, follow = some w → s.cutOrder d x.handle notice follow = (tookIn u d w).onDesk d fun k =>
      { k with savedFollowOn := some { handle := w, cls := (s.story w).cls } }) := by
  obtain ⟨cut, same⟩ := cutSaved_of isCut
  rw [cutOrder_saved saved other, cut]
  refine ⟨?_, ?_⟩
  · rintro rfl
    exact savedFollow_none d u
  · rintro w rfl
    exact savedFollow_some same w

/-- The removal and the replacement of a story's entry, by the place that names it (R90, R91). -/
theorem removed_replaced {s removed replaced : State} {d : DeskId} {w t : HandleId} {f : FollowOn}
    (isFollow : f = { handle := w, cls := (s.story w).cls })
    (direct : Follows (s.desk d).directNext t →
      removed = gaveUp (s.onDesk d fun k => { k with directNext := none }) d t ∧
      replaced = tookIn (gaveUp (s.onDesk d fun k => { k with directNext := some f }) d t) d w)
    (saved : ¬ Follows (s.desk d).directNext t → Follows (s.desk d).savedFollowOn t →
      removed = gaveUp (s.onDesk d fun k => { k with savedFollowOn := none }) d t ∧
      replaced = tookIn (gaveUp (s.onDesk d fun k => { k with savedFollowOn := some f }) d t) d w)
    (queued : ¬ Follows (s.desk d).directNext t → ¬ Follows (s.desk d).savedFollowOn t →
      removed = gaveUp (s.onDesk d fun k => { k with queue := k.queue.filter fun e => decide (e.handle ≠ t) }) d t ∧
      replaced = tookIn (gaveUp (s.onDesk d fun k =>
        { k with queue := k.queue.map fun e => if e.handle = t then entryOf s w else e }) d t) d w) :
    removed = s.removeEntry d t ∧ replaced = s.replaceEntry d t w := by
  subst isFollow
  by_cases isDirect : Follows (s.desk d).directNext t
  · rw [removeEntry_direct isDirect, replaceEntry_direct isDirect]
    exact direct isDirect
  by_cases isSaved : Follows (s.desk d).savedFollowOn t
  · rw [removeEntry_saved isDirect isSaved, replaceEntry_saved isDirect isSaved]
    exact saved isDirect isSaved
  · rw [removeEntry_queued isDirect isSaved, replaceEntry_queued isDirect isSaved]
    exact queued isDirect isSaved

end Sys2Proof.Machine
end

section
/-!
PROOFS. The release of a write-through or an agency kill (R67, R68, R69, R71, R73).
-/

namespace Sys2Proof.Machine

open Sys2Proof.Claims

theorem story_setStoryState (s : State) (h : HandleId) (st : StoryState) (k : HandleId) :
    (s.setStoryState h st).story k = if h = k then { s.story h with state := st } else s.story k :=
  story_onStory s h k _

/-! ### The target (R68) -/

theorem qualifies_setStoryState (s : State) (w x : HandleId) (st : StoryState) :
    Qualifies (s.setStoryState w st) w x ↔ Qualifies s w x := by
  unfold Qualifies
  refine and_congr_right fun other => ?_
  rw [story_setStoryState, if_neg (Ne.symm other), story_setStoryState, if_pos rfl]

/-- The test of a story by the search for a target. -/
def qualifier (s : State) (w t : HandleId) : Bool :=
  decide (t ≠ w) && (s.story t).state.isTarget && decide ((s.story t).agency = (s.story w).agency) &&
    decide (some (s.story t).serial = (s.story w).refSerial)

theorem qualifier_eq_true_iff (s : State) (w t : HandleId) : qualifier s w t = true ↔ Qualifies s w t :=
  qualifies_iff s w t

theorem findTarget_eq (s : State) (w : HandleId) : s.findTarget w = s.completion.reverse.find? (qualifier s w) := rfl

/-- The newest story that qualifies is the target. -/
theorem findTarget_newest {s : State} {w t : HandleId} {older newer : List HandleId}
    (completion : s.completion = older ++ t :: newer) (target : Qualifies s w t) (others : ∀ x ∈ newer, ¬ Qualifies s w x) :
    s.findTarget w = some t := by
  have later : newer.reverse.find? (qualifier s w) = none :=
    List.find?_eq_none.mpr fun x mem => mt (qualifier_eq_true_iff s w x).mp (others x (List.mem_reverse.mp mem))
  rw [findTarget_eq, completion, List.reverse_append, List.reverse_cons, List.append_assoc, List.find?_append, later,
    Option.none_or]
  exact List.find?_cons_of_pos ((qualifier_eq_true_iff s w t).mpr target)

theorem findTarget_none {s : State} {w : HandleId} (others : ∀ x ∈ s.completion, ¬ Qualifies s w x) :
    s.findTarget w = none :=
  List.find?_eq_none.mpr fun x mem => mt (qualifier_eq_true_iff s w x).mp (others x (List.mem_reverse.mp mem))

theorem targetAtRelease_eq {s : State} {w : HandleId} (mode : (s.story w).mode ≠ .new) :
    (s.setStoryState w .live).targetAtRelease w = (s.setStoryState w .live).findTarget w := by
  unfold State.targetAtRelease
  refine if_neg ?_
  rw [story_setStoryState, if_pos rfl]
  exact mode

theorem mode_live (s : State) (w : HandleId) : ((s.setStoryState w .live).story w).mode = (s.story w).mode := by
  rw [story_setStoryState, if_pos rfl]

/-! ### The release around its placement (R67) -/

/-- What a release does behind the placement touches no desk and retires no story. -/
theorem releaseStory_after {s : State} {w : HandleId} {x : Option HandleId}
    (target : (s.setStoryState w .live).targetAtRelease w = x) :
    Edits (fun _ => False) noStory noStory ((s.setStoryState w .live).placeReleased w x) (s.releaseStory w) := by
  subst target
  unfold State.releaseStory
  dsimp only
  refine Edits.settleStory ?_ w
  have reported := fun named => (Edits.refl (D := fun _ => False) (R := noStory) (F := noStory)
    ((s.setStoryState w .live).placeReleased w ((s.setStoryState w .live).targetAtRelease w))).reportStory .storyPlaced
      noneByte w named
  split
  · exact (reported _).settleStory _
  · exact reported _

theorem placeReleased_writeThru {s : State} {w : HandleId} (mode : (s.story w).mode = .writeThru) (x : Option HandleId) :
    s.placeReleased w x = (s.recordTarget w x).placeWriteThru w x := by
  unfold State.placeReleased
  rw [mode]

theorem placeReleased_kill {s : State} {w : HandleId} (mode : (s.story w).mode = .kill) (x : Option HandleId) :
    s.placeReleased w x = (s.recordTarget w x).placeKill w x := by
  unfold State.placeReleased
  rw [mode]

/-- Untouched desks are the same. -/
theorem Edits.desks_eq {D : DeskId → Prop} {R F : HandleId → Prop} {s t : State} (e : Edits D R F s t)
    (untouched : ∀ d, ¬ D d) : t.desks = s.desks := by
  refine Edits.keeps (P := fun u => u.desks = s.desks) (fun {u v} edit same => ?_) e rfl
  cases edit with
  | onDesk touched f => exact absurd touched (untouched _)
  | report r => exact (report_desks _ r).trans same
  | _ => exact same

/-! ### A story placed as NEW in the course of a release (R69) -/

/-- A state in which a story is placed by the same text at the same desks. -/
def SamePlacement (s v : State) (w : HandleId) : Prop :=
  v.setup = s.setup ∧ (∀ d, v.desk d = s.desk d) ∧ (v.story w).selector = (s.story w).selector ∧
    (v.story w).cls = (s.story w).cls ∧ (v.story w).agency = (s.story w).agency

theorem keeps_samePlacement {s v : State} {w : HandleId} (same : SamePlacement s v w) (d : DeskId) :
    Keeps v w d ↔ Keeps s w d := by
  obtain ⟨setup, desk, selector, cls, agency⟩ := same
  unfold Keeps State.classRefused State.agencyRefused
  rw [setup, desk, selector, cls, agency]

/-- What a release leaves at each desk, when it places its story as NEW and no queue is full. -/
theorem placed_as_new {s v r : State} {w : HandleId} (same : SamePlacement s v w)
    (room : ∀ d, (s.desk d).queue.length < 32) (rest : Edits (fun _ => False) noStory noStory (v.placeNew w) r) (d : DeskId) :
    (Keeps s w d → Placed (entryOf s w) (s.desk d).queue (r.desk d).queue) ∧ (¬ Keeps s w d → r.desk d = s.desk d) := by
  have desk := same.2.1
  have entry : entryOf v w = entryOf s w := congrArg (DeskEntry.mk w .story) same.2.2.2.1
  have placed := placeNew_desk (s := v) (fun d => by rw [desk]; exact room d) w d
  rw [rest.desk_eq (d := d) id]
  refine ⟨fun kept => ?_, fun other => ?_⟩
  · rw [placed.1 ((keeps_samePlacement same d).mpr kept), entry, desk]
    exact placed_placeEntry _ _
  · rw [placed.2 (mt (keeps_samePlacement same d).mp other), desk]

/-! ### With a target (R71, R73) -/

section

variable {s : State} {w t : HandleId}

/-- The released story with its target recorded. -/
theorem story_recordTarget (other : t ≠ w) :
    ((s.setStoryState w .live).recordTarget w (some t)).story w =
      { s.story w with state := .live, refHandle := some (t, (s.story t).generation) } := by
  have generation : ((s.setStoryState w .live).story t).generation = (s.story t).generation := by
    rw [story_setStoryState, if_neg (Ne.symm other)]
  unfold State.recordTarget
  dsimp only
  rw [story_onStory, if_pos rfl, story_setStoryState, if_pos rfl, generation]

theorem story_target_recordTarget (other : t ≠ w) :
    ((s.setStoryState w .live).recordTarget w (some t)).story t = s.story t := by
  unfold State.recordTarget
  dsimp only
  rw [story_onStory, if_neg (Ne.symm other), story_setStoryState, if_neg (Ne.symm other)]

theorem placeWriteThru_held {u : State} (held : (u.story t).state = .held) (w : HandleId) :
    u.placeWriteThru w (some t) = (u.retireTarget t .superseded).placeNew w := by
  unfold State.placeWriteThru
  exact if_pos held

theorem placeKill_held {u : State} (held : (u.story t).state = .held) (w : HandleId) :
    u.placeKill w (some t) = u.retireTarget t .killed := by
  unfold State.placeKill
  exact if_pos held

/-- Whatever the target's state, a write-through retires it and then only places. -/
theorem placeWriteThru_retires (u : State) (w t : HandleId) :
    ∃ x : State, Edits everyDesk noStory noStory (x.retireTarget t .superseded) (u.placeWriteThru w (some t)) := by
  unfold State.placeWriteThru
  dsimp only
  split
  · exact ⟨u, (Edits.refl _).placeNew w⟩
  · exact ⟨_, Edits.refl _⟩

theorem placeKill_retires (u : State) (w t : HandleId) : ∃ x : State, u.placeKill w (some t) = x.retireTarget t .killed := by
  unfold State.placeKill
  dsimp only
  split
  · exact ⟨u, rfl⟩
  · exact ⟨_, rfl⟩

theorem samePlacement_retireTarget (other : t ≠ w) (st : StoryState) :
    SamePlacement s (((s.setStoryState w .live).recordTarget w (some t)).retireTarget t st) w := by
  have story : (((s.setStoryState w .live).recordTarget w (some t)).retireTarget t st).story w =
      { s.story w with state := .live, refHandle := some (t, (s.story t).generation) } := by
    rw [← story_recordTarget other]
    exact (story_onStory _ t w _).trans (if_neg other)
  refine ⟨rfl, fun d => rfl, ?_, ?_, ?_⟩
  all_goals rw [story]

variable (target : (s.setStoryState w .live).targetAtRelease w = some t)
include target

/-- The released story keeps its target and generation recorded (R67 step 2). -/
theorem refHandle_releaseStory (mode : (s.story w).mode ≠ .new) :
    ((s.releaseStory w).story w).refHandle = some (t, (s.story t).generation) := by
  have other : t ≠ w := targetAtRelease_ne target
  have record := story_recordTarget (s := s) other
  have placed : Edits everyDesk (fun x => x = t) noStory ((s.setStoryState w .live).recordTarget w (some t))
      ((s.setStoryState w .live).placeReleased w (some t)) := by
    have own := mode_live s w
    cases kind : (s.story w).mode with
    | new => exact absurd kind mode
    | writeThru =>
      rw [placeReleased_writeThru (own.trans kind)]
      exact (Edits.refl _).placeWriteThru w fun x e => (Option.some.inj e).symm
    | kill =>
      rw [placeReleased_kill (own.trans kind)]
      exact (Edits.refl _).placeKill w fun x e => (Option.some.inj e).symm
  have path := placed.trans ((releaseStory_after target).mono (fun _ => False.elim) (fun _ => False.elim) fun _ => id)
  rw [path.refHandle_eq (Ne.symm other) id (Or.inl (by rw [record])), record]

/-- The write-through of a target (R71, R72). -/
theorem releaseStory_writeThru (mode : (s.story w).mode = .writeThru) :
    (((s.releaseStory w).story t).state = .superseded ∨ ((s.releaseStory w).story t).state = .free) ∧
    ((s.story t).state = .held → (∀ d, (s.desk d).queue.length < 32) →
      ∀ d, (Keeps s w d → Placed (entryOf s w) (s.desk d).queue ((s.releaseStory w).desk d).queue) ∧
        (¬ Keeps s w d → (s.releaseStory w).desk d = s.desk d)) := by
  have other : t ≠ w := targetAtRelease_ne target
  have own := (mode_live s w).trans mode
  have rest := releaseStory_after target
  rw [placeReleased_writeThru own] at rest
  refine ⟨?_, fun held room d => ?_⟩
  · obtain ⟨x, placed⟩ := placeWriteThru_retires ((s.setStoryState w .live).recordTarget w (some t)) w t
    refine (placed.trans (rest.mono (fun _ => False.elim) (fun _ => id) fun _ => id)).gone_or_free id (Or.inr rfl)
      (Or.inl ?_)
    rw [story_retireTarget]
  · rw [placeWriteThru_held (by rw [story_target_recordTarget other]; exact held)] at rest
    exact placed_as_new (samePlacement_retireTarget other .superseded) room rest d

/-- The agency kill of a target (R73, R74). -/
theorem releaseStory_kill (mode : (s.story w).mode = .kill) :
    (((s.releaseStory w).story t).state = .killed ∨ ((s.releaseStory w).story t).state = .free) ∧
    ((s.story t).state = .held → (s.releaseStory w).desks = s.desks) := by
  have other : t ≠ w := targetAtRelease_ne target
  have own := (mode_live s w).trans mode
  have rest := releaseStory_after target
  rw [placeReleased_kill own] at rest
  refine ⟨?_, fun held => ?_⟩
  · obtain ⟨x, placed⟩ := placeKill_retires ((s.setStoryState w .live).recordTarget w (some t)) w t
    refine rest.gone_or_free id (Or.inl rfl) (Or.inl ?_)
    rw [placed, story_retireTarget]
  · rw [placeKill_held (by rw [story_target_recordTarget other]; exact held)] at rest
    exact rest.desks_eq fun _ => id

end

/-! ### Without a target (R68) -/

/-- The REFERENCE_UNKNOWN record of a released story (R68, R188). -/
def unknownRecord (s : State) (w : HandleId) : Record :=
  naming s .referenceUnknown (byte (s.story w).window.val) w (leBytes 2 ((s.story w).refSerial.getD 0))

theorem recordTarget_none (s : State) (w : HandleId) :
    (s.setStoryState w .live).recordTarget w none = (s.setStoryState w .live).report (unknownRecord s w) := by
  have story : (s.setStoryState w .live).story w = { s.story w with state := .live } := by
    rw [story_setStoryState, if_pos rfl]
  unfold State.recordTarget
  dsimp only
  rw [reportStory_eq]
  unfold naming unknownRecord naming
  rw [story]
  rfl

theorem placeWriteThru_none (s : State) (w : HandleId) : s.placeWriteThru w none = s.placeNew w := rfl

section

variable {s : State} {w : HandleId} (target : (s.setStoryState w .live).targetAtRelease w = none)
include target

/-- A release without a target, once that has been reported, retires no story. -/
theorem releaseStory_reported (mode : (s.story w).mode ≠ .new) :
    Edits everyDesk noStory noStory ((s.setStoryState w .live).report (unknownRecord s w)) (s.releaseStory w) := by
  have rest := (releaseStory_after target).mono (D' := everyDesk) (fun _ => False.elim) (fun _ => id) fun _ => id
  cases kind : (s.story w).mode with
  | new => exact absurd kind mode
  | writeThru =>
    rw [placeReleased_writeThru ((mode_live s w).trans kind), recordTarget_none, placeWriteThru_none] at rest
    exact ((Edits.refl _).placeNew w).trans rest
  | kill =>
    rw [placeReleased_kill ((mode_live s w).trans kind), recordTarget_none] at rest
    exact rest

/-- REFERENCE_UNKNOWN is the first report. -/
theorem queue_releaseStory (mode : (s.story w).mode ≠ .new) (ring : s.ringCode ≠ 0) (room : s.writer.queue.length < 16) :
    ∃ more, (s.releaseStory w).writer.queue = s.writer.queue ++ unknownRecord s w :: more := by
  have queued : ((s.setStoryState w .live).report (unknownRecord s w)).writer.queue =
      s.writer.queue ++ [unknownRecord s w] := by
    unfold State.report
    rw [if_pos (show (s.setStoryState w .live).writer.queue.length < 16 ∧ (s.setStoryState w .live).ringCode ≠ 0 from
      ⟨room, ring⟩)]
    rfl
  obtain ⟨more, queue⟩ := (releaseStory_reported target mode).queue_append ⟨[], by rw [queued, List.append_nil]⟩
  exact ⟨more, by rw [queue, List.append_assoc, List.singleton_append]⟩

/-- A write-through without a target is placed as NEW. -/
theorem releaseStory_writeThru_unknown (mode : (s.story w).mode = .writeThru)
    (room : ∀ d, (s.desk d).queue.length < 32) (d : DeskId) :
    (Keeps s w d → Placed (entryOf s w) (s.desk d).queue ((s.releaseStory w).desk d).queue) ∧
      (¬ Keeps s w d → (s.releaseStory w).desk d = s.desk d) := by
  have rest := releaseStory_after target
  rw [placeReleased_writeThru ((mode_live s w).trans mode), recordTarget_none, placeWriteThru_none] at rest
  have same : SamePlacement s ((s.setStoryState w .live).report (unknownRecord s w)) w := by
    unfold SamePlacement
    rw [report_setup, story_report, story_setStoryState, if_pos rfl]
    exact ⟨rfl, fun d => desk_report _ _ d, rfl, rfl, rfl⟩
  exact placed_as_new same room rest d

/-- An agency kill without a target touches no desk. -/
theorem releaseStory_kill_unknown (mode : (s.story w).mode = .kill) : (s.releaseStory w).desks = s.desks := by
  have rest := releaseStory_after target
  rw [placeReleased_kill ((mode_live s w).trans mode), recordTarget_none] at rest
  exact (rest.desks_eq fun _ => id).trans (report_desks _ _)

end

end Sys2Proof.Machine
end

section
/-!
PROOFS. The host's KILL of a story ACTIVE or DONE at a desk (R76), and the obligation on cuts, write-throughs and kills.
-/

namespace Sys2Proof.Machine

open Sys2Proof.Claims

/-! ### A notice that an item goes on with -/

/-- A notice's groups are set by the setup and by the story it names. -/
theorem noticeLayout_congr {s v : State} {h : HandleId} (setup : v.setup = s.setup)
    (agency : (v.story h).agency = (s.story h).agency) (serial : (v.story h).serial = (s.story h).serial)
    (slug : (v.story h).slug = (s.story h).slug) (k : NoticeKind) : v.noticeLayout k h = s.noticeLayout k h := by
  unfold State.noticeLayout State.spacePhrase State.phrase State.agencyLetters
  dsimp only
  rw [setup, agency, serial, slug]

theorem goesOn_notice_congr {s v : State} {d : DeskId} {c y : SendContext} {k : NoticeKind} {h : HandleId}
    (setup : v.setup = s.setup) (layout : v.noticeLayout k h = s.noticeLayout k h)
    (on : goesOn s d c (.notice k h .finish) y) : goesOn v d c (.notice k h .finish) y := by
  obtain ⟨passed, begun⟩ := on
  refine ⟨fun out => passed ((leftOut_congr setup k).mp out), fun sent => ?_⟩
  rw [layout]
  exact begun (mt (leftOut_congr setup k).mpr sent)

theorem segment_of_goesOn_notice {s : State} {d : DeskId} {c y : SendContext} {k : NoticeKind} {h : HandleId}
    (on : goesOn s d c (.notice k h .finish) y) : y.segment = .notice k h .finish := by
  obtain ⟨passed, begun⟩ := on
  rw [begun fun out => passed out]

/-- Of a LIVE or SPENT story that is neither retired nor given a target, state, holders and marks alone change. -/
theorem Edits.live_text {D : DeskId → Prop} {R F : HandleId → Prop} {s t : State} (e : Edits D R F s t) {h : HandleId}
    (notRetired : ¬ R h) (notReferred : ¬ F h) (start : (s.story h).state = .live ∨ (s.story h).state = .spent) :
    ∃ state holders marks, (state = .live ∨ state = .spent) ∧
      t.story h = { s.story h with state := state, holders := holders, marks := marks } := by
  refine e.keepsRecord (Q := fun r => ∃ state holders marks, (state = .live ∨ state = .spent) ∧
    r = { s.story h with state := state, holders := holders, marks := marks }) (fun r r' edit kept => ?_)
    ⟨_, _, _, start, rfl⟩
  obtain ⟨state, holders, marks, kept, rfl⟩ := kept
  cases edit with
  | mark touched m => exact ⟨_, _, _, kept, rfl⟩
  | holders n => exact ⟨_, _, _, kept, rfl⟩
  | spend live => exact ⟨_, _, _, Or.inr rfl, rfl⟩
  | clear gone =>
    rcases kept with rfl | rfl
    · exact absurd gone (by rintro (x | x) <;> cases x)
    · exact absurd gone (by rintro (x | x) <;> cases x)
  | retire allowed final => exact absurd allowed notRetired
  | refer allowed x => exact absurd allowed notReferred

/-! ### The host's KILL at one desk (R76) -/

/-- The end of an item leaves the marks. -/
theorem markAt_endItem (s : State) (d e : DeskId) (c : SendContext) (h : HandleId) :
    (s.endItem d c).markAt h e = s.markAt h e := by
  unfold State.endItem State.releaseHolder State.markAt
  rw [story_onDesk, story_onStory]
  split
  case isTrue own => exact congrArg (fun g => (s.story g).marks[e]) own
  case isFalse => rfl

section

variable {u : State} {d : DeskId} {t : HandleId} {c : SendContext}

/-- The cut that the host's KILL orders at a desk where its story is the current item. -/
theorem hostKillAt_cut (mark : u.markAt t d = .active) (context : (u.desk d).context = some c) (handle : c.handle = t)
    (kind : c.kind = .story) :
    ∃ v : State, v.setup = u.setup ∧ v.markAt t d = .cut ∧ v.desk d = stopped (u.desk d) ∧
      v.noticeLayout .kill t = u.noticeLayout .kill t ∧ State.hostKillAt t u d = v.beginNext d c (.notice .kill t .finish) := by
  subst handle
  let v := ((u.onDesk d stopped).setMark c.handle d .cut).report
    (naming u .storyCut (byte (d.val + 1)) c.handle [byte NoticeKind.kill.code, 0, byte c.segment.code, followByte none])
  have same : SameText u v := (((SameText.refl u).onDesk d stopped).setMark c.handle d .cut).report _
  obtain ⟨cut, setup⟩ := cutCurrent_of (s := u) (v := v) (notice := .kill) (follow := none) rfl (fun _ => rfl) nofun
  refine ⟨v, setup, ?_, ?_, ?_, ?_⟩
  · unfold State.markAt
    rw [story_report]
    exact markAt_setMark _ c.handle d .cut
  · rw [desk_report]
    exact (desk_onDesk u d d stopped).trans (if_pos rfl)
  · obtain ⟨holders, marks, story⟩ := same.2 c.handle
    refine noticeLayout_congr setup ?_ ?_ ?_ .kill
    all_goals rw [story]
  · rw [hostKillAt_active mark, cutOrder_current context rfl kind, cut]

theorem hostKillAt_active_desk (mark : u.markAt t d = .active) (context : (u.desk d).context = some c) (handle : c.handle = t)
    (kind : c.kind = .story) :
    (State.hostKillAt t u d).markAt t d = .cut ∧
    (∀ y, goesOn u d c (.notice .kill t .finish) y →
      (State.hostKillAt t u d).desk d = { stopped (u.desk d) with context := some y }) ∧
    (LeftOut u .kill → (State.hostKillAt t u d).desk d = { stopped (u.desk d) with context := none }) := by
  obtain ⟨v, setup, cut, desk, layout, kill⟩ := hostKillAt_cut mark context handle kind
  have goes : ∀ y, goesOn u d c (.notice .kill t .finish) y → State.hostKillAt t u d = v.onDesk d fun k =>
      { k with context := some y } := fun y on => kill.trans (beginNext_goesOn (goesOn_notice_congr setup layout on))
  have ends : LeftOut u .kill → State.hostKillAt t u d = v.endItem d c := fun out =>
    kill.trans (beginNext_endsAt (endsAt_notice t ((leftOut_congr setup .kill).mpr out)))
  refine ⟨?_, fun y on => ?_, fun out => ?_⟩
  · by_cases out : LeftOut u .kill
    · rw [ends out, markAt_endItem]
      exact cut
    · rw [goes _ (goesOn_notice d c t .finish out)]
      exact cut
  · rw [goes y on, desk_onDesk, if_pos rfl, desk]
  · rw [ends out]
    unfold State.endItem
    rw [desk_onDesk, if_pos rfl, ← desk]
    rfl

/-- The KILL_NOTICE entry that the host's KILL queues at a desk where its story is done. -/
theorem hostKillAt_done_queue (mark : u.markAt t d = .done) (isOpen : (u.desk d).isOpen = true)
    (room : (u.desk d).queue.length < 32) :
    Placed { handle := t, kind := .killNotice, cls := .bulletin } (u.desk d).queue
      ((State.hostKillAt t u d).desk d).queue := by
  rw [hostKillAt_done mark, if_pos isOpen, insertEntry_of_room room, joinQueue_killNotice rfl rfl, desk_onStory, desk_onDesk,
    if_pos rfl]
  exact placed_placeEntry _ _

end

/-- The host's KILL around what it does at one desk: before it the other desks change, and behind it they do and the story is
retired and settled. -/
theorem hostKill_around {s : State} {t : HandleId} (state : (s.story t).state = .live ∨ (s.story t).state = .spent)
    (d : DeskId) :
    ∃ u x, Edits (fun e => e ≠ d) noStory noStory s u ∧
      Edits (fun e => e ≠ d) noStory noStory (State.hostKillAt t u d) x ∧ s.hostKill t = (x.retireTarget t .killed).settleStory t := by
  have notHeld : (s.story t).state ≠ .held := by rcases state with state | state <;> rw [state] <;> exact nofun
  obtain ⟨u, before, -, after⟩ := foldl_allDesks_at (R := noStory) (F := noStory)
    (fun s d => (Edits.refl s).hostKillAt t rfl) s d
  exact ⟨u, _, before, after, hostKill_placed notHeld⟩

/-- Where a story stood CUT before it is retired, it does so when it has been settled, or is FREE. -/
theorem markAt_retired {x : State} {t : HandleId} {d : DeskId} (cut : x.markAt t d = .cut) :
    ((x.retireTarget t .killed).settleStory t).markAt t d = .cut ∨
      (((x.retireTarget t .killed).settleStory t).story t).state = .free := by
  have path : Edits (fun _ => False) noStory noStory (x.retireTarget t .killed)
      ((x.retireTarget t .killed).settleStory t) := (Edits.refl _).settleStory t
  refine path.keepsRecord (Q := fun r => r.marks[d] = .cut ∨ r.state = .free) (fun r r' edit kept => ?_) (Or.inl ?_)
  · cases edit with
    | mark touched m => exact touched.elim
    | holders n => exact kept
    | spend live => exact Or.inl (kept.resolve_right (by rw [live]; exact nofun))
    | clear gone => exact Or.inr rfl
    | retire allowed final => exact allowed.elim
    | refer allowed x => exact allowed.elim
  · rw [story_retireTarget]
    exact cut

/-! ### The flag of a desk whose item has been cut -/

theorem preempt_of_notice {s : State} {d : DeskId} {y : SendContext} {k : NoticeKind} {h : HandleId}
    (context : (s.desk d).context = some y) (segment : y.segment = .notice k h .finish) : s.flashDue d = false := by
  refine Bool.eq_false_iff.mpr (mt (flashDue_eq_true_iff s d).mp ?_)
  rintro ⟨-, -, -, ⟨z, present, -, -, sending⟩, -⟩
  obtain rfl : y = z := Option.some.inj (context.symm.trans present)
  rw [segment] at sending
  rcases sending with header | text
  · cases header
  · cases text

theorem preempt_of_none {s : State} {d : DeskId} (context : (s.desk d).context = none) : s.flashDue d = false := by
  refine Bool.eq_false_iff.mpr (mt (flashDue_eq_true_iff s d).mp ?_)
  rintro ⟨-, -, -, ⟨z, present, -⟩, -⟩
  rw [context] at present
  cases present

/-! ### The host's KILL, with its tests -/

theorem setup_of_onlyStories {s u : State} (only : OnlyStories s u) : u.setup = s.setup := by
  rw [only]

section

variable {s : State} {t : HandleId} {d : DeskId} (state : (s.story t).state = .live ∨ (s.story t).state = .spent)
include state

theorem hostKill_active {c : SendContext} (mark : s.markAt t d = .active) (context : (s.desk d).context = some c)
    (handle : c.handle = t) (kind : c.kind = .story) :
    ((s.hostKill t).testFlags.testRooms.markAt t d = .cut ∨
      ((s.hostKill t).testFlags.testRooms.story t).state = .free) ∧
    (∀ y, goesOn (s.onDesk d stopped) d c (.notice .kill t .finish) y →
      (s.hostKill t).testFlags.testRooms.desk d = { stopped (s.desk d) with context := some y, preempt := false }) ∧
    (LeftOut s .kill →
      (s.hostKill t).testFlags.testRooms.desk d = { stopped (s.desk d) with context := none, preempt := false }) := by
  obtain ⟨u, x, before, after, killed⟩ := hostKill_around state d
  have untouched : ¬ d ≠ d := fun ne => ne rfl
  have setup : u.setup = s.setup := setup_of_onlyStories before.onlyStories
  have desk : u.desk d = s.desk d := before.desk_eq untouched
  obtain ⟨st, holders, marks, stands, story⟩ := before.live_text (h := t) id id state
  have layout : u.noticeLayout .kill t = s.noticeLayout .kill t := by
    refine noticeLayout_congr setup ?_ ?_ ?_ .kill
    all_goals rw [story]
  obtain ⟨cut, goes, ends⟩ := hostKillAt_active_desk ((before.mark_eq id state untouched).trans mark)
    ((congrArg Desk.context desk).trans context) handle kind
  have path : Edits (fun e => e ≠ d) (fun h => h = t) noStory (State.hostKillAt t u d) (s.hostKill t) := by
    rw [killed]
    exact (Edits.retireTarget (R := fun h => h = t) (after.mono (fun _ => id) (fun _ => False.elim) fun _ => id) rfl
      (Or.inl rfl)).settleStory t
  have final := path.desk_eq untouched
  have tested : (s.hostKill t).testFlags.testRooms.desk d =
      { (s.hostKill t).desk d with preempt := (s.hostKill t).flashDue d } :=
    (desk_testRooms _ d).trans (desk_testFlags _ d)
  refine ⟨?_, fun y on => ?_, fun out => ?_⟩
  · have stays : ((State.hostKillAt t u d).story t).state = .live ∨ ((State.hostKillAt t u d).story t).state = .spent :=
      ((Edits.refl (D := everyDesk) (R := noStory) (F := noStory) u).hostKillAt t trivial).live_or_spent id
        (by rw [story]; exact stands)
    have kept := markAt_retired ((after.mark_eq id stays untouched).trans cut)
    rw [← killed] at kept
    unfold State.markAt
    rw [story_testRooms, story_testFlags]
    exact kept
  · have on' : goesOn u d c (.notice .kill t .finish) y := goesOn_notice_congr (s := s.onDesk d stopped) setup layout on
    have sent : (s.hostKill t).desk d = { stopped (s.desk d) with context := some y } := by
      rw [final, goes y on', desk]
    rw [tested, preempt_of_notice (congrArg Desk.context sent) (segment_of_goesOn_notice on), sent]
  · have ended : (s.hostKill t).desk d = { stopped (s.desk d) with context := none } := by
      rw [final, ends ((leftOut_congr setup .kill).mpr out), desk]
    rw [tested, preempt_of_none (congrArg Desk.context ended), ended]

theorem hostKill_done (mark : s.markAt t d = .done) (isOpen : (s.desk d).isOpen = true)
    (room : (s.desk d).queue.length < 32) :
    Placed { handle := t, kind := .killNotice, cls := .bulletin } (s.desk d).queue
      ((s.hostKill t).testFlags.testRooms.desk d).queue := by
  obtain ⟨u, before, desk, sameMark, after⟩ := hostKill_at state d
  rw [desk_testRooms, desk_testFlags, after.desk_eq fun ne => ne rfl, ← desk]
  rw [← desk] at isOpen room
  exact hostKillAt_done_queue (sameMark.trans mark) isOpen room

end

/-- Settles O21: cut orders, the placement at one desk, releases with and without a target, and the host's KILL. -/
theorem cutsWriteThroughsAndKills : Obligations.CutsWriteThroughsAndKills := by
  refine ⟨cutOrder_current_clause, cutOrder_saved_clause, ?_, ?_, ?_, ?_⟩
  · rintro s removed replaced d w t f m rfl isFollow direct saved queued
    obtain ⟨rfl, rfl⟩ := removed_replaced isFollow direct saved queued
    refine ⟨fun closed => ⟨placeWriteThruAt_closed closed w t, placeKillAt_closed closed w t⟩, fun isOpen => ?_,
      hostKillAt_queued, hostKillAt_active, hostKillAt_done, hostKillAt_other⟩
    refine ⟨fun mark => ⟨placeKillAt_queued isOpen w mark, placeWriteThruAt_queued isOpen w mark⟩,
      fun mark => ⟨placeKillAt_active isOpen w mark, placeWriteThruAt_active isOpen w mark⟩,
      fun mark => ⟨placeKillAt_done isOpen w mark, placeWriteThruAt_done isOpen w mark⟩,
      fun mark => ⟨placeKillAt_other isOpen w mark, fun kept => ?_, fun other => ?_⟩⟩
    · rw [placeWriteThruAt_other isOpen w mark, placeNewAt_kept kept]
    · rw [placeWriteThruAt_other isOpen w mark, placeNewAt_other other]
  · intro s w t older newer mode completion target others
    have found : (s.setStoryState w .live).targetAtRelease w = some t := by
      rw [targetAtRelease_eq mode]
      exact findTarget_newest (s := s.setStoryState w .live) completion ((qualifies_setStoryState s w t .live).mpr target)
        fun x mem => mt (qualifies_setStoryState s w x .live).mp (others x mem)
    exact ⟨refHandle_releaseStory found mode, releaseStory_writeThru found, releaseStory_kill found⟩
  · intro s w mode others
    have found : (s.setStoryState w .live).targetAtRelease w = none := by
      rw [targetAtRelease_eq mode]
      exact findTarget_none (s := s.setStoryState w .live) fun x mem =>
        mt (qualifies_setStoryState s w x .live).mp (others x mem)
    exact ⟨queue_releaseStory found mode, releaseStory_writeThru_unknown found, releaseStory_kill_unknown found⟩
  · intro s x more t d hd code run handle same state
    have yes : accepted .kill s.mode = true := decide_eq_true run
    refine ⟨_, exec_performed (k := .kill) hd code yes ((withStory_current s _ handle same).trans
      (if_pos ((isTarget_eq_true_iff _).mpr (Or.inr state)))), ?_, fun c mark context own kind =>
        hostKill_active state mark context own kind, hostKill_done state⟩
    exact onlyStories_trans (hostKill_edits s t).onlyStories (onlyStories_testRooms _)

end Sys2Proof.Machine
end
